-- ==== Sys2Proof/Word.lean ====
section
/-! DEFINITION. The two word types of the machine: the byte of the address space and of the accumulators, and the
16-bit word of PC, SP, X, D and every address (10_state.md R20, R28; 00_scope.md R6 XLEN_ACC, XLEN_ADDR). -/
namespace Sys2Proof

/-- A byte: the unit of memory and the width of A, B and CCR (R20, R28). -/
abbrev Byte := BitVec 8

/-- A 16-bit word: PC, SP, X, the pair D and every address (R20); its arithmetic is modulo 65536 (R24, R70). -/
abbrev Word := BitVec 16

end Sys2Proof
end

