-- ==== Sys2Proof/Machine/Bits.lean ====
section
/-! DEFINITION. The bit-field and byte-order helpers of 00_scope.md R8 to R10. -/
namespace Sys2Proof.Machine

/-- `v[15:8]`, the more significant byte. -/
def hi (v : Word) : Byte := v.extractLsb' 8 8

/-- `v[7:0]`, the less significant byte. -/
def lo (v : Word) : Byte := v.extractLsb' 0 8

/-- `h:l`, the concatenation with `h` the more significant part (R8). -/
def cat (h l : Byte) : Word := h ++ l

/-- `zext_16(v)` of R10. -/
def zext16 (v : Byte) : Word := v.setWidth 16

/-- `sext_16(v)` of R10: `v` if `v < 128`, else `v + 0xFF00`. -/
def sext16 (v : Byte) : Word := if v.toNat < 128 then zext16 v else zext16 v + 0xFF00#16

end Sys2Proof.Machine
end

