-- ==== Sys2Proof/Syntax.lean ====
section
/-! DEFINITION. The instructions (30_encoding.md R94, R100): one constructor for each mnemonic of
`spec/opcode_table.json`, its addressing form an argument, so that a row of the table is a constructor with a form
(log 10). The aliases of R116 are other spellings of these. -/
namespace Sys2Proof

/-- A memory operand, formats DIR, IDX and EXT of R94. -/
inductive Mode where
  /-- Direct: page zero, `EA = zext_16(addr8)`. -/
  | dir (addr8 : Byte)
  /-- Indexed: `EA = X + zext_16(disp8)`. -/
  | idx (disp8 : Byte)
  /-- Extended: `EA = addr16`. -/
  | ext (addr16 : Word)
deriving DecidableEq, Repr

/-- A memory operand of the instructions that have only the formats IDX and EXT (opcode rows 6 and 7 of R100). -/
inductive ModeXE where
  /-- Indexed. -/
  | idx (disp8 : Byte)
  /-- Extended. -/
  | ext (addr16 : Word)
deriving DecidableEq, Repr

/-- The memory operand of AIM, OIM, EIM and TIM: formats IMM_DIR and IMM_IDX, "There is no extended form". -/
inductive ModeDX where
  /-- Direct. -/
  | dir (addr8 : Byte)
  /-- Indexed. -/
  | idx (disp8 : Byte)
deriving DecidableEq, Repr

/-- An 8-bit source, `Opnd8(mode)` of R95: format IMM8 or a memory operand. -/
inductive Src8 where
  /-- The byte itself. -/
  | imm (imm8 : Byte)
  /-- The byte at the effective address. -/
  | mem (m : Mode)
deriving DecidableEq, Repr

/-- A 16-bit source, `Opnd16(mode)` of R95: format IMM16 or a memory operand. -/
inductive Src16 where
  /-- The value itself. -/
  | imm (imm16 : Word)
  /-- The two bytes at the effective address, high byte first. -/
  | mem (m : Mode)
deriving DecidableEq, Repr

/-- The nine formats of R94. -/
inductive Format where
  /-- Opcode alone. -/
  | inh
  /-- Opcode and `imm8`. -/
  | imm8
  /-- Opcode and `imm16`. -/
  | imm16
  /-- Opcode and `addr8`. -/
  | dir
  /-- Opcode and `addr16`. -/
  | ext
  /-- Opcode and `disp8`. -/
  | idx
  /-- Opcode and `rel8`. -/
  | rel
  /-- Opcode, mask and `addr8`. -/
  | immDir
  /-- Opcode, mask and `disp8`. -/
  | immIdx
deriving DecidableEq, Repr

/-- The instructions. -/
inductive Instr where
  -- Loads, stores, transfers, stack (41_load_store_transfer.md)
  /-- LDAA (R140): `0x86` IMM8, `0x96` DIR, `0xA6` IDX, `0xB6` EXT. -/
  | ldaa (src : Src8)
  /-- LDAB (R140): `0xC6` IMM8, `0xD6` DIR, `0xE6` IDX, `0xF6` EXT. -/
  | ldab (src : Src8)
  /-- LDD (R141): `0xCC` IMM16, `0xDC` DIR, `0xEC` IDX, `0xFC` EXT. -/
  | ldd (src : Src16)
  /-- LDX (R142): `0xCE` IMM16, `0xDE` DIR, `0xEE` IDX, `0xFE` EXT. -/
  | ldx (src : Src16)
  /-- LDS (R143): `0x8E` IMM16, `0x9E` DIR, `0xAE` IDX, `0xBE` EXT. -/
  | lds (src : Src16)
  /-- STAA (R145): `0x97` DIR, `0xA7` IDX, `0xB7` EXT. -/
  | staa (m : Mode)
  /-- STAB (R145): `0xD7` DIR, `0xE7` IDX, `0xF7` EXT. -/
  | stab (m : Mode)
  /-- STD (R146): `0xDD` DIR, `0xED` IDX, `0xFD` EXT. -/
  | std (m : Mode)
  /-- STX (R147): `0xDF` DIR, `0xEF` IDX, `0xFF` EXT. -/
  | stx (m : Mode)
  /-- STS (R148): `0x9F` DIR, `0xAF` IDX, `0xBF` EXT. -/
  | sts (m : Mode)
  /-- TAB (R161): `0x16` INH. -/
  | tab
  /-- TBA (R162): `0x17` INH. -/
  | tba
  /-- TAP (R163): `0x06` INH. -/
  | tap
  /-- TPA (R164): `0x07` INH. -/
  | tpa
  /-- TSX (R165): `0x30` INH. -/
  | tsx
  /-- TXS (R166): `0x35` INH. -/
  | txs
  /-- XGDX (R167): `0x18` INH. -/
  | xgdx
  /-- PSHA (R170): `0x36` INH. -/
  | psha
  /-- PSHB (R170): `0x37` INH. -/
  | pshb
  /-- PULA (R171): `0x32` INH. -/
  | pula
  /-- PULB (R171): `0x33` INH. -/
  | pulb
  /-- PSHX (R172): `0x3C` INH. -/
  | pshx
  /-- PULX (R173): `0x38` INH. -/
  | pulx
  -- Arithmetic, compare, test (42_arithmetic.md)
  /-- ABA (R194): `0x1B` INH. -/
  | aba
  /-- ADDA (R195): `0x8B` IMM8, `0x9B` DIR, `0xAB` IDX, `0xBB` EXT. -/
  | adda (src : Src8)
  /-- ADDB (R195): `0xCB` IMM8, `0xDB` DIR, `0xEB` IDX, `0xFB` EXT. -/
  | addb (src : Src8)
  /-- ADCA (R196): `0x89` IMM8, `0x99` DIR, `0xA9` IDX, `0xB9` EXT. -/
  | adca (src : Src8)
  /-- ADCB (R196): `0xC9` IMM8, `0xD9` DIR, `0xE9` IDX, `0xF9` EXT. -/
  | adcb (src : Src8)
  /-- SUBA (R197): `0x80` IMM8, `0x90` DIR, `0xA0` IDX, `0xB0` EXT. -/
  | suba (src : Src8)
  /-- SUBB (R197): `0xC0` IMM8, `0xD0` DIR, `0xE0` IDX, `0xF0` EXT. -/
  | subb (src : Src8)
  /-- SBCA (R198): `0x82` IMM8, `0x92` DIR, `0xA2` IDX, `0xB2` EXT. -/
  | sbca (src : Src8)
  /-- SBCB (R198): `0xC2` IMM8, `0xD2` DIR, `0xE2` IDX, `0xF2` EXT. -/
  | sbcb (src : Src8)
  /-- ADDD (R199): `0xC3` IMM16, `0xD3` DIR, `0xE3` IDX, `0xF3` EXT. -/
  | addd (src : Src16)
  /-- SUBD (R200): `0x83` IMM16, `0x93` DIR, `0xA3` IDX, `0xB3` EXT. -/
  | subd (src : Src16)
  /-- SBA (R203): `0x10` INH. -/
  | sba
  /-- MUL (R207): `0x3D` INH. -/
  | mul
  /-- ABX (R208): `0x3A` INH. -/
  | abx
  /-- DAA (R209): `0x19` INH. -/
  | daa
  /-- NEGA (R210): `0x40` INH. -/
  | nega
  /-- NEGB (R210): `0x50` INH. -/
  | negb
  /-- NEG (R210): `0x60` IDX, `0x70` EXT. -/
  | neg (m : ModeXE)
  /-- INCA (R212): `0x4C` INH. -/
  | inca
  /-- INCB (R212): `0x5C` INH. -/
  | incb
  /-- INC (R212): `0x6C` IDX, `0x7C` EXT. -/
  | inc (m : ModeXE)
  /-- DECA (R213): `0x4A` INH. -/
  | deca
  /-- DECB (R213): `0x5A` INH. -/
  | decb
  /-- DEC (R213): `0x6A` IDX, `0x7A` EXT. -/
  | dec (m : ModeXE)
  /-- INX (R214): `0x08` INH. -/
  | inx
  /-- DEX (R215): `0x09` INH. -/
  | dex
  /-- INS (R216): `0x31` INH. -/
  | ins
  /-- DES (R217): `0x34` INH. -/
  | des
  /-- CMPA (R218): `0x81` IMM8, `0x91` DIR, `0xA1` IDX, `0xB1` EXT. -/
  | cmpa (src : Src8)
  /-- CMPB (R218): `0xC1` IMM8, `0xD1` DIR, `0xE1` IDX, `0xF1` EXT. -/
  | cmpb (src : Src8)
  /-- CBA (R219): `0x11` INH. -/
  | cba
  /-- CPX (R220): `0x8C` IMM16, `0x9C` DIR, `0xAC` IDX, `0xBC` EXT. -/
  | cpx (src : Src16)
  /-- TSTA (R221): `0x4D` INH. -/
  | tsta
  /-- TSTB (R221): `0x5D` INH. -/
  | tstb
  /-- TST (R221): `0x6D` IDX, `0x7D` EXT. -/
  | tst (m : ModeXE)
  -- Logic, shift, bit manipulation (43_logic_shift_bit.md)
  /-- ANDA (R250): `0x84` IMM8, `0x94` DIR, `0xA4` IDX, `0xB4` EXT. -/
  | anda (src : Src8)
  /-- ANDB (R250): `0xC4` IMM8, `0xD4` DIR, `0xE4` IDX, `0xF4` EXT. -/
  | andb (src : Src8)
  /-- ORAA (R251): `0x8A` IMM8, `0x9A` DIR, `0xAA` IDX, `0xBA` EXT. -/
  | oraa (src : Src8)
  /-- ORAB (R251): `0xCA` IMM8, `0xDA` DIR, `0xEA` IDX, `0xFA` EXT. -/
  | orab (src : Src8)
  /-- EORA (R252): `0x88` IMM8, `0x98` DIR, `0xA8` IDX, `0xB8` EXT. -/
  | eora (src : Src8)
  /-- EORB (R252): `0xC8` IMM8, `0xD8` DIR, `0xE8` IDX, `0xF8` EXT. -/
  | eorb (src : Src8)
  /-- BITA (R253): `0x85` IMM8, `0x95` DIR, `0xA5` IDX, `0xB5` EXT. -/
  | bita (src : Src8)
  /-- BITB (R253): `0xC5` IMM8, `0xD5` DIR, `0xE5` IDX, `0xF5` EXT. -/
  | bitb (src : Src8)
  /-- COMA (R258): `0x43` INH. -/
  | coma
  /-- COMB (R258): `0x53` INH. -/
  | comb
  /-- COM (R258): `0x63` IDX, `0x73` EXT. -/
  | com (m : ModeXE)
  /-- CLRA (R259): `0x4F` INH. -/
  | clra
  /-- CLRB (R259): `0x5F` INH. -/
  | clrb
  /-- CLR (R259): `0x6F` IDX, `0x7F` EXT. -/
  | clr (m : ModeXE)
  /-- ASLA (R270): `0x48` INH. -/
  | asla
  /-- ASLB (R270): `0x58` INH. -/
  | aslb
  /-- ASL (R270): `0x68` IDX, `0x78` EXT. -/
  | asl (m : ModeXE)
  /-- ASRA (R271): `0x47` INH. -/
  | asra
  /-- ASRB (R271): `0x57` INH. -/
  | asrb
  /-- ASR (R271): `0x67` IDX, `0x77` EXT. -/
  | asr (m : ModeXE)
  /-- LSRA (R272): `0x44` INH. -/
  | lsra
  /-- LSRB (R272): `0x54` INH. -/
  | lsrb
  /-- LSR (R272): `0x64` IDX, `0x74` EXT. -/
  | lsr (m : ModeXE)
  /-- ROLA (R273): `0x49` INH. -/
  | rola
  /-- ROLB (R273): `0x59` INH. -/
  | rolb
  /-- ROL (R273): `0x69` IDX, `0x79` EXT. -/
  | rol (m : ModeXE)
  /-- RORA (R274): `0x46` INH. -/
  | rora
  /-- RORB (R274): `0x56` INH. -/
  | rorb
  /-- ROR (R274): `0x66` IDX, `0x76` EXT. -/
  | ror (m : ModeXE)
  /-- ASLD (R275): `0x05` INH. -/
  | asld
  /-- LSRD (R276): `0x04` INH. -/
  | lsrd
  /-- AIM (R280): `0x61` IMM_IDX, `0x71` IMM_DIR. -/
  | aim (mask : Byte) (m : ModeDX)
  /-- OIM (R281): `0x62` IMM_IDX, `0x72` IMM_DIR. -/
  | oim (mask : Byte) (m : ModeDX)
  /-- EIM (R282): `0x65` IMM_IDX, `0x75` IMM_DIR. -/
  | eim (mask : Byte) (m : ModeDX)
  /-- TIM (R283): `0x6B` IMM_IDX, `0x7B` IMM_DIR. -/
  | tim (mask : Byte) (m : ModeDX)
  -- Control transfer (44_control_transfer.md)
  /-- BRA (R301): `0x20` REL. -/
  | bra (rel : Byte)
  /-- BRN (R302): `0x21` REL. -/
  | brn (rel : Byte)
  /-- BHI (R303): `0x22` REL. -/
  | bhi (rel : Byte)
  /-- BLS (R304): `0x23` REL. -/
  | bls (rel : Byte)
  /-- BCC (R305): `0x24` REL. -/
  | bcc (rel : Byte)
  /-- BCS (R306): `0x25` REL. -/
  | bcs (rel : Byte)
  /-- BNE (R307): `0x26` REL. -/
  | bne (rel : Byte)
  /-- BEQ (R308): `0x27` REL. -/
  | beq (rel : Byte)
  /-- BVC (R309): `0x28` REL. -/
  | bvc (rel : Byte)
  /-- BVS (R310): `0x29` REL. -/
  | bvs (rel : Byte)
  /-- BPL (R311): `0x2A` REL. -/
  | bpl (rel : Byte)
  /-- BMI (R312): `0x2B` REL. -/
  | bmi (rel : Byte)
  /-- BGE (R313): `0x2C` REL. -/
  | bge (rel : Byte)
  /-- BLT (R314): `0x2D` REL. -/
  | blt (rel : Byte)
  /-- BGT (R315): `0x2E` REL. -/
  | bgt (rel : Byte)
  /-- BLE (R316): `0x2F` REL. -/
  | ble (rel : Byte)
  /-- JMP (R320): `0x6E` IDX, `0x7E` EXT. -/
  | jmp (m : ModeXE)
  /-- JSR (R322): `0x9D` DIR, `0xAD` IDX, `0xBD` EXT. -/
  | jsr (m : Mode)
  /-- BSR (R323): `0x8D` REL. -/
  | bsr (rel : Byte)
  /-- RTS (R324): `0x39` INH. -/
  | rts
  -- System (45_system.md)
  /-- NOP (R341): `0x01` INH. -/
  | nop
  /-- CLC (R342): `0x0C` INH. -/
  | clc
  /-- SEC (R343): `0x0D` INH. -/
  | sec
  /-- CLV (R344): `0x0A` INH. -/
  | clv
  /-- SEV (R345): `0x0B` INH. -/
  | sev
  /-- CLI (R346): `0x0E` INH. -/
  | cli
  /-- SEI (R347): `0x0F` INH. -/
  | sei
  /-- SWI (R348): `0x3F` INH. -/
  | swi
  /-- RTI (R349): `0x3B` INH. -/
  | rti
  /-- WAI (R351): `0x3E` INH. -/
  | wai
  /-- SLP (R352): `0x1A` INH. -/
  | slp
  -- Undefined opcodes (30_encoding.md R112)
  /-- ILLEGAL (R112): one of the 26 opcodes that name no instruction, format INH. -/
  | illegal (op : Byte)
deriving DecidableEq, Repr

/-- The format of a memory operand. -/
def Mode.format : Mode → Format
  | .dir _ => .dir
  | .idx _ => .idx
  | .ext _ => .ext

/-- The format of an indexed or extended operand. -/
def ModeXE.format : ModeXE → Format
  | .idx _ => .idx
  | .ext _ => .ext

/-- The format of a mask with its memory operand. -/
def ModeDX.format : ModeDX → Format
  | .dir _ => .immDir
  | .idx _ => .immIdx

/-- The format of an 8-bit source. -/
def Src8.format : Src8 → Format
  | .imm _ => .imm8
  | .mem m => m.format

/-- The format of a 16-bit source. -/
def Src16.format : Src16 → Format
  | .imm _ => .imm16
  | .mem m => m.format

/-- Bytes of an instruction of a format (R94, R96). -/
def Format.length : Format → Nat
  | .inh => 1
  | .imm8 | .dir | .idx | .rel => 2
  | .imm16 | .ext | .immDir | .immIdx => 3

/-- The format of an instruction (R100, the paragraph under the table). -/
def Instr.format : Instr → Format
  | .tab | .tba | .tap | .tpa | .tsx | .txs | .xgdx | .psha | .pshb | .pula | .pulb | .pshx | .pulx | .aba
  | .sba | .mul | .abx | .daa | .nega | .negb | .inca | .incb | .deca | .decb | .inx | .dex | .ins | .des
  | .cba | .tsta | .tstb | .coma | .comb | .clra | .clrb | .asla | .aslb | .asra | .asrb | .lsra | .lsrb
  | .rola | .rolb | .rora | .rorb | .asld | .lsrd | .rts | .nop | .clc | .sec | .clv | .sev | .cli | .sei
  | .swi | .rti | .wai | .slp | .illegal _ => .inh
  | .bra _ | .brn _ | .bhi _ | .bls _ | .bcc _ | .bcs _ | .bne _ | .beq _ | .bvc _ | .bvs _ | .bpl _ | .bmi _
  | .bge _ | .blt _ | .bgt _ | .ble _ | .bsr _ => .rel
  | .staa m | .stab m | .std m | .stx m | .sts m | .jsr m => m.format
  | .neg m | .inc m | .dec m | .tst m | .com m | .clr m | .asl m | .asr m | .lsr m | .rol m | .ror m | .jmp m => m.format
  | .aim _ m | .oim _ m | .eim _ m | .tim _ m => m.format
  | .ldaa src | .ldab src | .adda src | .addb src | .adca src | .adcb src | .suba src | .subb src | .sbca src
  | .sbcb src | .cmpa src | .cmpb src | .anda src | .andb src | .oraa src | .orab src | .eora src | .eorb src
  | .bita src | .bitb src => src.format
  | .ldd src | .ldx src | .lds src | .addd src | .subd src | .cpx src => src.format

end Sys2Proof
end

