-- ==== Sys2Proof/WellFormed.lean ====
section
/-! DEFINITION. Which terms of `Instr` an instruction word can stand for. "Operand bytes have no reserved values" (R113),
so the only check is that `illegal` carries an opcode that R112 lists. -/
namespace Sys2Proof

/-- The 26 undefined opcodes of R112. -/
def illegalOpcodes : List Byte :=
  [0x00#8, 0x02#8, 0x03#8, 0x12#8, 0x13#8, 0x14#8, 0x15#8, 0x1C#8, 0x1D#8, 0x1E#8, 0x1F#8,
   0x41#8, 0x42#8, 0x45#8, 0x4B#8, 0x4E#8, 0x51#8, 0x52#8, 0x55#8, 0x5B#8, 0x5E#8,
   0x87#8, 0x8F#8, 0xC7#8, 0xCD#8, 0xCF#8]

/-- An instruction that some instruction bytes encode. -/
def Instr.wf : Instr → Bool
  | .illegal op => illegalOpcodes.contains op
  | .tab | .tba | .tap | .tpa | .tsx | .txs | .xgdx | .psha | .pshb | .pula | .pulb | .pshx | .pulx | .aba
  | .sba | .mul | .abx | .daa | .nega | .negb | .inca | .incb | .deca | .decb | .inx | .dex | .ins | .des
  | .cba | .tsta | .tstb | .coma | .comb | .clra | .clrb | .asla | .aslb | .asra | .asrb | .lsra | .lsrb
  | .rola | .rolb | .rora | .rorb | .asld | .lsrd | .rts | .nop | .clc | .sec | .clv | .sev | .cli | .sei
  | .swi | .rti | .wai | .slp => true
  | .bra _ | .brn _ | .bhi _ | .bls _ | .bcc _ | .bcs _ | .bne _ | .beq _ | .bvc _ | .bvs _ | .bpl _ | .bmi _
  | .bge _ | .blt _ | .bgt _ | .ble _ | .bsr _ => true
  | .staa _ | .stab _ | .std _ | .stx _ | .sts _ | .jsr _ => true
  | .neg _ | .inc _ | .dec _ | .tst _ | .com _ | .clr _ | .asl _ | .asr _ | .lsr _ | .rol _ | .ror _ | .jmp _ => true
  | .aim _ _ | .oim _ _ | .eim _ _ | .tim _ _ => true
  | .ldaa _ | .ldab _ | .adda _ | .addb _ | .adca _ | .adcb _ | .suba _ | .subb _ | .sbca _ | .sbcb _
  | .cmpa _ | .cmpb _ | .anda _ | .andb _ | .oraa _ | .orab _ | .eora _ | .eorb _ | .bita _ | .bitb _ => true
  | .ldd _ | .ldx _ | .lds _ | .addd _ | .subd _ | .cpx _ => true

end Sys2Proof
end

