-- ==== Sys2Proof/Decode.lean ====
section
/-! DEFINITION. The decoder, from the opcode map of 30_encoding.md R100 (one function for each of its sixteen rows), and
after it the encoder, from the Encoding paragraph of each instruction's rule. Both follow the formats of R94. -/
namespace Sys2Proof

open Sys2Proof.Machine (hi lo cat)

/-- Row `0_` of R100 (INH), by the opcode's low nibble. -/
def decodeRow0 : Nat → Instr
  | 0x0 => .illegal 0x00#8
  | 0x1 => .nop
  | 0x2 => .illegal 0x02#8
  | 0x3 => .illegal 0x03#8
  | 0x4 => .lsrd
  | 0x5 => .asld
  | 0x6 => .tap
  | 0x7 => .tpa
  | 0x8 => .inx
  | 0x9 => .dex
  | 0xA => .clv
  | 0xB => .sev
  | 0xC => .clc
  | 0xD => .sec
  | 0xE => .cli
  | _ => .sei

/-- Row `1_` of R100 (INH), by the opcode's low nibble. -/
def decodeRow1 : Nat → Instr
  | 0x0 => .sba
  | 0x1 => .cba
  | 0x2 => .illegal 0x12#8
  | 0x3 => .illegal 0x13#8
  | 0x4 => .illegal 0x14#8
  | 0x5 => .illegal 0x15#8
  | 0x6 => .tab
  | 0x7 => .tba
  | 0x8 => .xgdx
  | 0x9 => .daa
  | 0xA => .slp
  | 0xB => .aba
  | 0xC => .illegal 0x1C#8
  | 0xD => .illegal 0x1D#8
  | 0xE => .illegal 0x1E#8
  | _ => .illegal 0x1F#8

/-- Row `2_` of R100 (REL), by the opcode's low nibble. -/
def decodeRow2 (b1 : Byte) : Nat → Instr
  | 0x0 => .bra b1
  | 0x1 => .brn b1
  | 0x2 => .bhi b1
  | 0x3 => .bls b1
  | 0x4 => .bcc b1
  | 0x5 => .bcs b1
  | 0x6 => .bne b1
  | 0x7 => .beq b1
  | 0x8 => .bvc b1
  | 0x9 => .bvs b1
  | 0xA => .bpl b1
  | 0xB => .bmi b1
  | 0xC => .bge b1
  | 0xD => .blt b1
  | 0xE => .bgt b1
  | _ => .ble b1

/-- Row `3_` of R100 (INH), by the opcode's low nibble. -/
def decodeRow3 : Nat → Instr
  | 0x0 => .tsx
  | 0x1 => .ins
  | 0x2 => .pula
  | 0x3 => .pulb
  | 0x4 => .des
  | 0x5 => .txs
  | 0x6 => .psha
  | 0x7 => .pshb
  | 0x8 => .pulx
  | 0x9 => .rts
  | 0xA => .abx
  | 0xB => .rti
  | 0xC => .pshx
  | 0xD => .mul
  | 0xE => .wai
  | _ => .swi

/-- Row `4_` of R100 (INH), by the opcode's low nibble. -/
def decodeRow4 : Nat → Instr
  | 0x0 => .nega
  | 0x1 => .illegal 0x41#8
  | 0x2 => .illegal 0x42#8
  | 0x3 => .coma
  | 0x4 => .lsra
  | 0x5 => .illegal 0x45#8
  | 0x6 => .rora
  | 0x7 => .asra
  | 0x8 => .asla
  | 0x9 => .rola
  | 0xA => .deca
  | 0xB => .illegal 0x4B#8
  | 0xC => .inca
  | 0xD => .tsta
  | 0xE => .illegal 0x4E#8
  | _ => .clra

/-- Row `5_` of R100 (INH), by the opcode's low nibble. -/
def decodeRow5 : Nat → Instr
  | 0x0 => .negb
  | 0x1 => .illegal 0x51#8
  | 0x2 => .illegal 0x52#8
  | 0x3 => .comb
  | 0x4 => .lsrb
  | 0x5 => .illegal 0x55#8
  | 0x6 => .rorb
  | 0x7 => .asrb
  | 0x8 => .aslb
  | 0x9 => .rolb
  | 0xA => .decb
  | 0xB => .illegal 0x5B#8
  | 0xC => .incb
  | 0xD => .tstb
  | 0xE => .illegal 0x5E#8
  | _ => .clrb

/-- Row `6_` of R100 (IDX; IMM_IDX for AIM, OIM, EIM, TIM), by the opcode's low nibble. -/
def decodeRow6 (b1 b2 : Byte) : Nat → Instr
  | 0x0 => .neg (.idx b1)
  | 0x1 => .aim b1 (.idx b2)
  | 0x2 => .oim b1 (.idx b2)
  | 0x3 => .com (.idx b1)
  | 0x4 => .lsr (.idx b1)
  | 0x5 => .eim b1 (.idx b2)
  | 0x6 => .ror (.idx b1)
  | 0x7 => .asr (.idx b1)
  | 0x8 => .asl (.idx b1)
  | 0x9 => .rol (.idx b1)
  | 0xA => .dec (.idx b1)
  | 0xB => .tim b1 (.idx b2)
  | 0xC => .inc (.idx b1)
  | 0xD => .tst (.idx b1)
  | 0xE => .jmp (.idx b1)
  | _ => .clr (.idx b1)

/-- Row `7_` of R100 (EXT; IMM_DIR for AIM, OIM, EIM, TIM), by the opcode's low nibble. -/
def decodeRow7 (b1 b2 : Byte) : Nat → Instr
  | 0x0 => .neg (.ext (cat b1 b2))
  | 0x1 => .aim b1 (.dir b2)
  | 0x2 => .oim b1 (.dir b2)
  | 0x3 => .com (.ext (cat b1 b2))
  | 0x4 => .lsr (.ext (cat b1 b2))
  | 0x5 => .eim b1 (.dir b2)
  | 0x6 => .ror (.ext (cat b1 b2))
  | 0x7 => .asr (.ext (cat b1 b2))
  | 0x8 => .asl (.ext (cat b1 b2))
  | 0x9 => .rol (.ext (cat b1 b2))
  | 0xA => .dec (.ext (cat b1 b2))
  | 0xB => .tim b1 (.dir b2)
  | 0xC => .inc (.ext (cat b1 b2))
  | 0xD => .tst (.ext (cat b1 b2))
  | 0xE => .jmp (.ext (cat b1 b2))
  | _ => .clr (.ext (cat b1 b2))

/-- Row `8_` of R100 (IMM8; IMM16 for SUBD, CPX, LDS; REL for BSR), by the opcode's low nibble. -/
def decodeRow8 (b1 b2 : Byte) : Nat → Instr
  | 0x0 => .suba (.imm b1)
  | 0x1 => .cmpa (.imm b1)
  | 0x2 => .sbca (.imm b1)
  | 0x3 => .subd (.imm (cat b1 b2))
  | 0x4 => .anda (.imm b1)
  | 0x5 => .bita (.imm b1)
  | 0x6 => .ldaa (.imm b1)
  | 0x7 => .illegal 0x87#8
  | 0x8 => .eora (.imm b1)
  | 0x9 => .adca (.imm b1)
  | 0xA => .oraa (.imm b1)
  | 0xB => .adda (.imm b1)
  | 0xC => .cpx (.imm (cat b1 b2))
  | 0xD => .bsr b1
  | 0xE => .lds (.imm (cat b1 b2))
  | _ => .illegal 0x8F#8

/-- Row `9_` of R100 (DIR), by the opcode's low nibble. -/
def decodeRow9 (b1 : Byte) : Nat → Instr
  | 0x0 => .suba (.mem (.dir b1))
  | 0x1 => .cmpa (.mem (.dir b1))
  | 0x2 => .sbca (.mem (.dir b1))
  | 0x3 => .subd (.mem (.dir b1))
  | 0x4 => .anda (.mem (.dir b1))
  | 0x5 => .bita (.mem (.dir b1))
  | 0x6 => .ldaa (.mem (.dir b1))
  | 0x7 => .staa (.dir b1)
  | 0x8 => .eora (.mem (.dir b1))
  | 0x9 => .adca (.mem (.dir b1))
  | 0xA => .oraa (.mem (.dir b1))
  | 0xB => .adda (.mem (.dir b1))
  | 0xC => .cpx (.mem (.dir b1))
  | 0xD => .jsr (.dir b1)
  | 0xE => .lds (.mem (.dir b1))
  | _ => .sts (.dir b1)

/-- Row `A_` of R100 (IDX), by the opcode's low nibble. -/
def decodeRowA (b1 : Byte) : Nat → Instr
  | 0x0 => .suba (.mem (.idx b1))
  | 0x1 => .cmpa (.mem (.idx b1))
  | 0x2 => .sbca (.mem (.idx b1))
  | 0x3 => .subd (.mem (.idx b1))
  | 0x4 => .anda (.mem (.idx b1))
  | 0x5 => .bita (.mem (.idx b1))
  | 0x6 => .ldaa (.mem (.idx b1))
  | 0x7 => .staa (.idx b1)
  | 0x8 => .eora (.mem (.idx b1))
  | 0x9 => .adca (.mem (.idx b1))
  | 0xA => .oraa (.mem (.idx b1))
  | 0xB => .adda (.mem (.idx b1))
  | 0xC => .cpx (.mem (.idx b1))
  | 0xD => .jsr (.idx b1)
  | 0xE => .lds (.mem (.idx b1))
  | _ => .sts (.idx b1)

/-- Row `B_` of R100 (EXT), by the opcode's low nibble. -/
def decodeRowB (b1 b2 : Byte) : Nat → Instr
  | 0x0 => .suba (.mem (.ext (cat b1 b2)))
  | 0x1 => .cmpa (.mem (.ext (cat b1 b2)))
  | 0x2 => .sbca (.mem (.ext (cat b1 b2)))
  | 0x3 => .subd (.mem (.ext (cat b1 b2)))
  | 0x4 => .anda (.mem (.ext (cat b1 b2)))
  | 0x5 => .bita (.mem (.ext (cat b1 b2)))
  | 0x6 => .ldaa (.mem (.ext (cat b1 b2)))
  | 0x7 => .staa (.ext (cat b1 b2))
  | 0x8 => .eora (.mem (.ext (cat b1 b2)))
  | 0x9 => .adca (.mem (.ext (cat b1 b2)))
  | 0xA => .oraa (.mem (.ext (cat b1 b2)))
  | 0xB => .adda (.mem (.ext (cat b1 b2)))
  | 0xC => .cpx (.mem (.ext (cat b1 b2)))
  | 0xD => .jsr (.ext (cat b1 b2))
  | 0xE => .lds (.mem (.ext (cat b1 b2)))
  | _ => .sts (.ext (cat b1 b2))

/-- Row `C_` of R100 (IMM8; IMM16 for ADDD, LDD, LDX), by the opcode's low nibble. -/
def decodeRowC (b1 b2 : Byte) : Nat → Instr
  | 0x0 => .subb (.imm b1)
  | 0x1 => .cmpb (.imm b1)
  | 0x2 => .sbcb (.imm b1)
  | 0x3 => .addd (.imm (cat b1 b2))
  | 0x4 => .andb (.imm b1)
  | 0x5 => .bitb (.imm b1)
  | 0x6 => .ldab (.imm b1)
  | 0x7 => .illegal 0xC7#8
  | 0x8 => .eorb (.imm b1)
  | 0x9 => .adcb (.imm b1)
  | 0xA => .orab (.imm b1)
  | 0xB => .addb (.imm b1)
  | 0xC => .ldd (.imm (cat b1 b2))
  | 0xD => .illegal 0xCD#8
  | 0xE => .ldx (.imm (cat b1 b2))
  | _ => .illegal 0xCF#8

/-- Row `D_` of R100 (DIR), by the opcode's low nibble. -/
def decodeRowD (b1 : Byte) : Nat → Instr
  | 0x0 => .subb (.mem (.dir b1))
  | 0x1 => .cmpb (.mem (.dir b1))
  | 0x2 => .sbcb (.mem (.dir b1))
  | 0x3 => .addd (.mem (.dir b1))
  | 0x4 => .andb (.mem (.dir b1))
  | 0x5 => .bitb (.mem (.dir b1))
  | 0x6 => .ldab (.mem (.dir b1))
  | 0x7 => .stab (.dir b1)
  | 0x8 => .eorb (.mem (.dir b1))
  | 0x9 => .adcb (.mem (.dir b1))
  | 0xA => .orab (.mem (.dir b1))
  | 0xB => .addb (.mem (.dir b1))
  | 0xC => .ldd (.mem (.dir b1))
  | 0xD => .std (.dir b1)
  | 0xE => .ldx (.mem (.dir b1))
  | _ => .stx (.dir b1)

/-- Row `E_` of R100 (IDX), by the opcode's low nibble. -/
def decodeRowE (b1 : Byte) : Nat → Instr
  | 0x0 => .subb (.mem (.idx b1))
  | 0x1 => .cmpb (.mem (.idx b1))
  | 0x2 => .sbcb (.mem (.idx b1))
  | 0x3 => .addd (.mem (.idx b1))
  | 0x4 => .andb (.mem (.idx b1))
  | 0x5 => .bitb (.mem (.idx b1))
  | 0x6 => .ldab (.mem (.idx b1))
  | 0x7 => .stab (.idx b1)
  | 0x8 => .eorb (.mem (.idx b1))
  | 0x9 => .adcb (.mem (.idx b1))
  | 0xA => .orab (.mem (.idx b1))
  | 0xB => .addb (.mem (.idx b1))
  | 0xC => .ldd (.mem (.idx b1))
  | 0xD => .std (.idx b1)
  | 0xE => .ldx (.mem (.idx b1))
  | _ => .stx (.idx b1)

/-- Row `F_` of R100 (EXT), by the opcode's low nibble. -/
def decodeRowF (b1 b2 : Byte) : Nat → Instr
  | 0x0 => .subb (.mem (.ext (cat b1 b2)))
  | 0x1 => .cmpb (.mem (.ext (cat b1 b2)))
  | 0x2 => .sbcb (.mem (.ext (cat b1 b2)))
  | 0x3 => .addd (.mem (.ext (cat b1 b2)))
  | 0x4 => .andb (.mem (.ext (cat b1 b2)))
  | 0x5 => .bitb (.mem (.ext (cat b1 b2)))
  | 0x6 => .ldab (.mem (.ext (cat b1 b2)))
  | 0x7 => .stab (.ext (cat b1 b2))
  | 0x8 => .eorb (.mem (.ext (cat b1 b2)))
  | 0x9 => .adcb (.mem (.ext (cat b1 b2)))
  | 0xA => .orab (.mem (.ext (cat b1 b2)))
  | 0xB => .addb (.mem (.ext (cat b1 b2)))
  | 0xC => .ldd (.mem (.ext (cat b1 b2)))
  | 0xD => .std (.ext (cat b1 b2))
  | 0xE => .ldx (.mem (.ext (cat b1 b2)))
  | _ => .stx (.ext (cat b1 b2))

/-- The instruction of an opcode byte and the two bytes after it, of which the format uses none, one or both (R91: the
opcode byte alone selects the instruction). -/
def decodeOp (op b1 b2 : Byte) : Instr :=
  match op.toNat / 16 with
  | 0x0 => decodeRow0 (op.toNat % 16)
  | 0x1 => decodeRow1 (op.toNat % 16)
  | 0x2 => decodeRow2 b1 (op.toNat % 16)
  | 0x3 => decodeRow3 (op.toNat % 16)
  | 0x4 => decodeRow4 (op.toNat % 16)
  | 0x5 => decodeRow5 (op.toNat % 16)
  | 0x6 => decodeRow6 b1 b2 (op.toNat % 16)
  | 0x7 => decodeRow7 b1 b2 (op.toNat % 16)
  | 0x8 => decodeRow8 b1 b2 (op.toNat % 16)
  | 0x9 => decodeRow9 b1 (op.toNat % 16)
  | 0xA => decodeRowA b1 (op.toNat % 16)
  | 0xB => decodeRowB b1 b2 (op.toNat % 16)
  | 0xC => decodeRowC b1 b2 (op.toNat % 16)
  | 0xD => decodeRowD b1 (op.toNat % 16)
  | 0xE => decodeRowE b1 (op.toNat % 16)
  | _ => decodeRowF b1 b2 (op.toNat % 16)

/-- Bytes that follow an opcode byte: the length its format gives, less one (R96). -/
def operandCount (op : Byte) : Nat := (decodeOp op 0 0).format.length - 1

/-- Why a list of bytes is no instruction. Every opcode byte has an entry (R90), so only missing bytes are refused. -/
inductive DecodeError where
  /-- There is no byte at all. -/
  | noOpcode
  /-- The opcode's format asks for more bytes than follow. -/
  | missingOperands (op : Byte)
deriving DecidableEq, Repr

/-- The instruction at the head of a list of bytes, and the bytes after it. -/
def decode : List Byte → Except DecodeError (Instr × List Byte)
  | [] => .error .noOpcode
  | op :: rest =>
    match operandCount op, rest with
    | 0, r => .ok (decodeOp op 0 0, r)
    | 1, b1 :: r => .ok (decodeOp op b1 0, r)
    | 2, b1 :: b2 :: r => .ok (decodeOp op b1 b2, r)
    | _, _ => .error (.missingOperands op)

/-- The decoder on an instruction given as a number, byte `k` in bits `8k+7..8k`; bytes above `nbits` are 0. -/
def decodeTableWord (nbits w : Nat) : Option Instr :=
  let v := BitVec.ofNat 24 (w % 2 ^ nbits)
  match decode [v.extractLsb' 0 8, v.extractLsb' 8 8, v.extractLsb' 16 8] with
  | .ok (i, _) => some i
  | .error _ => none

/-- The bytes of a relative branch or of any instruction with one operand byte. -/
def enc1 (op b1 : Byte) : List Byte := [op, b1]

/-- The bytes of an instruction with a 16-bit field, high byte first (R94). -/
def enc2 (op : Byte) (v : Word) : List Byte := [op, hi v, lo v]

/-- Bytes of an instruction with the formats DIR, IDX and EXT, its opcodes in this order. -/
def encMode (opDir opIdx opExt : Byte) : Mode → List Byte
  | .dir a => enc1 opDir a
  | .idx d => enc1 opIdx d
  | .ext a => enc2 opExt a

/-- Bytes of an instruction with the formats IDX and EXT. -/
def encModeXE (opIdx opExt : Byte) : ModeXE → List Byte
  | .idx d => enc1 opIdx d
  | .ext a => enc2 opExt a

/-- Bytes of an instruction with the formats IMM_DIR and IMM_IDX: opcode, mask, then address or displacement. -/
def encModeDX (opDir opIdx mask : Byte) : ModeDX → List Byte
  | .dir a => [opDir, mask, a]
  | .idx d => [opIdx, mask, d]

/-- Bytes of an instruction with the formats IMM8, DIR, IDX and EXT, its opcodes in this order. -/
def encSrc8 (opImm opDir opIdx opExt : Byte) : Src8 → List Byte
  | .imm v => enc1 opImm v
  | .mem m => encMode opDir opIdx opExt m

/-- Bytes of an instruction with the formats IMM16, DIR, IDX and EXT, its opcodes in this order. -/
def encSrc16 (opImm opDir opIdx opExt : Byte) : Src16 → List Byte
  | .imm v => enc2 opImm v
  | .mem m => encMode opDir opIdx opExt m

/-- The bytes of an instruction, in the order they lie in memory. -/
def encode : Instr → List Byte
  | .ldaa src => encSrc8 0x86#8 0x96#8 0xA6#8 0xB6#8 src
  | .ldab src => encSrc8 0xC6#8 0xD6#8 0xE6#8 0xF6#8 src
  | .ldd src => encSrc16 0xCC#8 0xDC#8 0xEC#8 0xFC#8 src
  | .ldx src => encSrc16 0xCE#8 0xDE#8 0xEE#8 0xFE#8 src
  | .lds src => encSrc16 0x8E#8 0x9E#8 0xAE#8 0xBE#8 src
  | .staa m => encMode 0x97#8 0xA7#8 0xB7#8 m
  | .stab m => encMode 0xD7#8 0xE7#8 0xF7#8 m
  | .std m => encMode 0xDD#8 0xED#8 0xFD#8 m
  | .stx m => encMode 0xDF#8 0xEF#8 0xFF#8 m
  | .sts m => encMode 0x9F#8 0xAF#8 0xBF#8 m
  | .tab => [0x16#8]
  | .tba => [0x17#8]
  | .tap => [0x06#8]
  | .tpa => [0x07#8]
  | .tsx => [0x30#8]
  | .txs => [0x35#8]
  | .xgdx => [0x18#8]
  | .psha => [0x36#8]
  | .pshb => [0x37#8]
  | .pula => [0x32#8]
  | .pulb => [0x33#8]
  | .pshx => [0x3C#8]
  | .pulx => [0x38#8]
  | .aba => [0x1B#8]
  | .adda src => encSrc8 0x8B#8 0x9B#8 0xAB#8 0xBB#8 src
  | .addb src => encSrc8 0xCB#8 0xDB#8 0xEB#8 0xFB#8 src
  | .adca src => encSrc8 0x89#8 0x99#8 0xA9#8 0xB9#8 src
  | .adcb src => encSrc8 0xC9#8 0xD9#8 0xE9#8 0xF9#8 src
  | .suba src => encSrc8 0x80#8 0x90#8 0xA0#8 0xB0#8 src
  | .subb src => encSrc8 0xC0#8 0xD0#8 0xE0#8 0xF0#8 src
  | .sbca src => encSrc8 0x82#8 0x92#8 0xA2#8 0xB2#8 src
  | .sbcb src => encSrc8 0xC2#8 0xD2#8 0xE2#8 0xF2#8 src
  | .addd src => encSrc16 0xC3#8 0xD3#8 0xE3#8 0xF3#8 src
  | .subd src => encSrc16 0x83#8 0x93#8 0xA3#8 0xB3#8 src
  | .sba => [0x10#8]
  | .mul => [0x3D#8]
  | .abx => [0x3A#8]
  | .daa => [0x19#8]
  | .nega => [0x40#8]
  | .negb => [0x50#8]
  | .neg m => encModeXE 0x60#8 0x70#8 m
  | .inca => [0x4C#8]
  | .incb => [0x5C#8]
  | .inc m => encModeXE 0x6C#8 0x7C#8 m
  | .deca => [0x4A#8]
  | .decb => [0x5A#8]
  | .dec m => encModeXE 0x6A#8 0x7A#8 m
  | .inx => [0x08#8]
  | .dex => [0x09#8]
  | .ins => [0x31#8]
  | .des => [0x34#8]
  | .cmpa src => encSrc8 0x81#8 0x91#8 0xA1#8 0xB1#8 src
  | .cmpb src => encSrc8 0xC1#8 0xD1#8 0xE1#8 0xF1#8 src
  | .cba => [0x11#8]
  | .cpx src => encSrc16 0x8C#8 0x9C#8 0xAC#8 0xBC#8 src
  | .tsta => [0x4D#8]
  | .tstb => [0x5D#8]
  | .tst m => encModeXE 0x6D#8 0x7D#8 m
  | .anda src => encSrc8 0x84#8 0x94#8 0xA4#8 0xB4#8 src
  | .andb src => encSrc8 0xC4#8 0xD4#8 0xE4#8 0xF4#8 src
  | .oraa src => encSrc8 0x8A#8 0x9A#8 0xAA#8 0xBA#8 src
  | .orab src => encSrc8 0xCA#8 0xDA#8 0xEA#8 0xFA#8 src
  | .eora src => encSrc8 0x88#8 0x98#8 0xA8#8 0xB8#8 src
  | .eorb src => encSrc8 0xC8#8 0xD8#8 0xE8#8 0xF8#8 src
  | .bita src => encSrc8 0x85#8 0x95#8 0xA5#8 0xB5#8 src
  | .bitb src => encSrc8 0xC5#8 0xD5#8 0xE5#8 0xF5#8 src
  | .coma => [0x43#8]
  | .comb => [0x53#8]
  | .com m => encModeXE 0x63#8 0x73#8 m
  | .clra => [0x4F#8]
  | .clrb => [0x5F#8]
  | .clr m => encModeXE 0x6F#8 0x7F#8 m
  | .asla => [0x48#8]
  | .aslb => [0x58#8]
  | .asl m => encModeXE 0x68#8 0x78#8 m
  | .asra => [0x47#8]
  | .asrb => [0x57#8]
  | .asr m => encModeXE 0x67#8 0x77#8 m
  | .lsra => [0x44#8]
  | .lsrb => [0x54#8]
  | .lsr m => encModeXE 0x64#8 0x74#8 m
  | .rola => [0x49#8]
  | .rolb => [0x59#8]
  | .rol m => encModeXE 0x69#8 0x79#8 m
  | .rora => [0x46#8]
  | .rorb => [0x56#8]
  | .ror m => encModeXE 0x66#8 0x76#8 m
  | .asld => [0x05#8]
  | .lsrd => [0x04#8]
  | .aim mask m => encModeDX 0x71#8 0x61#8 mask m
  | .oim mask m => encModeDX 0x72#8 0x62#8 mask m
  | .eim mask m => encModeDX 0x75#8 0x65#8 mask m
  | .tim mask m => encModeDX 0x7B#8 0x6B#8 mask m
  | .bra rel => enc1 0x20#8 rel
  | .brn rel => enc1 0x21#8 rel
  | .bhi rel => enc1 0x22#8 rel
  | .bls rel => enc1 0x23#8 rel
  | .bcc rel => enc1 0x24#8 rel
  | .bcs rel => enc1 0x25#8 rel
  | .bne rel => enc1 0x26#8 rel
  | .beq rel => enc1 0x27#8 rel
  | .bvc rel => enc1 0x28#8 rel
  | .bvs rel => enc1 0x29#8 rel
  | .bpl rel => enc1 0x2A#8 rel
  | .bmi rel => enc1 0x2B#8 rel
  | .bge rel => enc1 0x2C#8 rel
  | .blt rel => enc1 0x2D#8 rel
  | .bgt rel => enc1 0x2E#8 rel
  | .ble rel => enc1 0x2F#8 rel
  | .jmp m => encModeXE 0x6E#8 0x7E#8 m
  | .jsr m => encMode 0x9D#8 0xAD#8 0xBD#8 m
  | .bsr rel => enc1 0x8D#8 rel
  | .rts => [0x39#8]
  | .nop => [0x01#8]
  | .clc => [0x0C#8]
  | .sec => [0x0D#8]
  | .clv => [0x0A#8]
  | .sev => [0x0B#8]
  | .cli => [0x0E#8]
  | .sei => [0x0F#8]
  | .swi => [0x3F#8]
  | .rti => [0x3B#8]
  | .wai => [0x3E#8]
  | .slp => [0x1A#8]
  | .illegal op => [op]

end Sys2Proof
end

