-- ==== Sys2Proof/Config.lean ====
section
/-! DEFINITION. The parameters of the block (00_scope.md R6) and its one free value. The default values stand in
`Sys2Proof/Machine/Defaults.lean`. -/
namespace Sys2Proof

/-- `ILLEGAL_POLICY`, what an undefined opcode does (R6, D11): "only value defined: `fault`". -/
inductive IllegalPolicy where
  /-- The step ends in the fault `IllegalOpcode` (R112, R125). -/
  | fault
deriving DecidableEq, Repr

/-- `PcValid`, which program counters strict mode accepts (R6, R124). Any set of addresses is a list of ranges (log 18). -/
inductive PcPolicy where
  /-- The default of R6: the RAM region and the ROM-backed region, wherever the parameters put them. -/
  | regions
  /-- An address is valid when one of these closed ranges holds it. -/
  | ranges (l : List (Word × Word))
deriving DecidableEq, Repr

/-- The parameters of 00_scope.md R6. No step and no host event changes them. They are plain data
and stand in `State` (log 1), so a statement about every state is one about every value of them. -/
structure Config where
  /-- `XLEN_ACC`, the accumulator width in bits. The rules define the value 8 alone (R20, log 20). -/
  xlenAcc : { n : Nat // n = 8 }
  /-- `XLEN_ADDR`, the width of PC, SP, X and addresses in bits. The rules define the value 16 alone (R20, log 20). -/
  xlenAddr : { n : Nat // n = 16 }
  /-- `MEM_SIZE`, the bytes of memory. The rules define the value 65536 alone (R28, log 20). -/
  memSize : { n : Nat // n = 65536 }
  /-- `IREG_LO`, the lowest address of the internal-register range. -/
  iregLo : Word
  /-- `IREG_HI`, the highest address of the internal-register range. -/
  iregHi : Word
  /-- `RAM_LO`. -/
  ramLo : Word
  /-- `RAM_HI`. -/
  ramHi : Word
  /-- `ROM_LO`, where the firmware image begins (R66, R484). -/
  romLo : Word
  /-- `ROM_HI`, where the firmware image ends. -/
  romHi : Word
  /-- `TCSR_ADDR`, the timer control/status register (R31). -/
  tcsrAddr : Word
  /-- `FRC_ADDR`, the counter's high byte; the low byte is at the next address (R33). -/
  frcAddr : Word
  /-- `OCR_ADDR`, the compare register's high byte; the low byte is at the next address (R35). -/
  ocrAddr : Word
  /-- `TRCSR_ADDR`, the serial control/status register (R37). -/
  trcsrAddr : Word
  /-- `RDR_ADDR`, the receive data register (R38). -/
  rdrAddr : Word
  /-- `TDR_ADDR`, the transmit data register (R39). -/
  tdrAddr : Word
  /-- `VEC_RESET` (R67). -/
  vecReset : Word
  /-- `VEC_SWI` (R67). -/
  vecSwi : Word
  /-- `VEC_OCF`, the output-compare interrupt (R67). -/
  vecOcf : Word
  /-- `VEC_SCI`, the serial interrupt, receive and transmit alike (R67). -/
  vecSci : Word
  /-- `IRQ_OPCODE`, the dispatch entry whose cost an interrupt entry is charged (R93). -/
  irqOpcode : Byte
  /-- `CYCLES`, the cost of opcode `k` at index `k` (R108). -/
  cycles : List Nat
  /-- `STRICT`, the diagnostic mode that checks the program counter (R124). -/
  strict : Bool
  /-- `PcValid` (R124). -/
  pcValid : PcPolicy
  /-- `ILLEGAL_POLICY` (R112). -/
  illegalPolicy : IllegalPolicy
  /-- `IDLE_COST`, cycles charged for an idle tick (R126, R127). -/
  idleCost : Nat
deriving DecidableEq, Repr

/-- The free values of flag V after DAA (42_arithmetic.md R209, U7: "any value"): the `n`-th DAA of a machine sets V to
`Config.freeV n`. It has no body, so nothing can be proved of it (log 5). -/
opaque Config.freeV : Nat → Bool

end Sys2Proof
end

