-- ==== Sys2Proof/Machine/Defaults.lean ====
section
/-! DEFINITION. The default values of the parameters (00_scope.md R6, 20_memory.md R66, R67, 30_encoding.md R108). Most
of them are the spec's own recalled numbers, marked K there (logs 8 and 9). -/
namespace Sys2Proof.Machine

/-- The default of `CYCLES` (R108), one line for each row of its table, high nibble 0 first. An undefined opcode, `-`
there, has no cost and is never charged: its entry is 0 (R112). -/
def defaultCycles : List Nat :=
  ([0, 1, 0, 0, 1, 1, 1, 1, 1, 1, 1, 1, 1, 1, 1, 1] ++
   [1, 1, 0, 0, 0, 0, 1, 1, 2, 2, 4, 1, 0, 0, 0, 0] ++
   [3, 3, 3, 3, 3, 3, 3, 3, 3, 3, 3, 3, 3, 3, 3, 3] ++
   [1, 1, 3, 3, 1, 1, 4, 4, 4, 5, 1, 10, 5, 7, 9, 12] ++
   [1, 0, 0, 1, 1, 0, 1, 1, 1, 1, 1, 0, 1, 1, 0, 1] ++
   [1, 0, 0, 1, 1, 0, 1, 1, 1, 1, 1, 0, 1, 1, 0, 1] ++
   [6, 7, 7, 6, 6, 7, 6, 6, 6, 6, 6, 5, 6, 4, 3, 5] ++
   [6, 6, 6, 6, 6, 6, 6, 6, 6, 6, 6, 4, 6, 4, 3, 5] ++
   [2, 2, 2, 3, 2, 2, 2, 0, 2, 2, 2, 2, 3, 5, 3, 0] ++
   [3, 3, 3, 4, 3, 3, 3, 3, 3, 3, 3, 3, 4, 5, 4, 4] ++
   [4, 4, 4, 5, 4, 4, 4, 4, 4, 4, 4, 4, 5, 5, 5, 5] ++
   [4, 4, 4, 5, 4, 4, 4, 4, 4, 4, 4, 4, 5, 6, 5, 5] ++
   [2, 2, 2, 3, 2, 2, 2, 0, 2, 2, 2, 2, 3, 0, 3, 0] ++
   [3, 3, 3, 4, 3, 3, 3, 3, 3, 3, 3, 3, 4, 4, 4, 4] ++
   [4, 4, 4, 5, 4, 4, 4, 4, 4, 4, 4, 4, 5, 5, 5, 5] ++
   [4, 4, 4, 5, 4, 4, 4, 4, 4, 4, 4, 4, 5, 5, 5, 5])

/-- The defaults of R6. -/
def defaultConfig : Config where
  xlenAcc := ⟨8, rfl⟩
  xlenAddr := ⟨16, rfl⟩
  memSize := ⟨65536, rfl⟩
  iregLo := 0x0000#16
  iregHi := 0x001F#16
  ramLo := 0x0080#16
  ramHi := 0x00FF#16
  romLo := 0xF000#16
  romHi := 0xFFFF#16
  tcsrAddr := 0x0008#16
  frcAddr := 0x0009#16
  ocrAddr := 0x000B#16
  trcsrAddr := 0x0011#16
  rdrAddr := 0x0012#16
  tdrAddr := 0x0013#16
  vecReset := 0xFFFE#16
  vecSwi := 0xFFFA#16
  vecOcf := 0xFFF4#16
  vecSci := 0xFFF0#16
  irqOpcode := 0x3F#8
  cycles := defaultCycles
  strict := false
  pcValid := .regions
  illegalPolicy := .fault
  idleCost := 1

end Sys2Proof.Machine
end

