-- ==== Sys2Proof/Machine/Memory.lean ====
section
/-! DEFINITION. The byte array `mem[0..65535]` (10_state.md R28, R29) as a list of (address, byte) pairs in one
canonical form: addresses strictly rising and below 65536, no entry equal to what an unlisted address reads as. -/
namespace Sys2Proof.Machine

/-- The byte array, as the list of the bytes that differ from `Memory.unlisted`. -/
abbrev Memory := List Host.Cell

/-- What a byte that nothing has loaded or written reads as. The spec gives no value (R29, U2): DESIGN CHOICE, log 4. -/
def Memory.unlisted : Byte := 0x00#8

/-- The byte at an address: a plain array read, `mem[a]` (R61). -/
def Memory.read : Memory → Nat → Byte
  | [], _ => Memory.unlisted
  | (k, v) :: rest, a => if k = a then v else Memory.read rest a

/-- `mem[a] <- v` (R61), keeping the canonical form: storing what an unlisted byte reads as removes the entry. -/
def Memory.write : Memory → Nat → Byte → Memory
  | [], a, v => if v = Memory.unlisted then [] else [(a, v)]
  | (k, w) :: rest, a, v =>
    if a < k then
      if v = Memory.unlisted then (k, w) :: rest else (a, v) :: (k, w) :: rest
    else if a = k then
      if v = Memory.unlisted then rest else (a, v) :: rest
    else (k, w) :: Memory.write rest a v

/-- Every address listed is at least `low`, below 65536 and below the next one, and no entry is redundant. -/
def Memory.wfFrom : Nat → Memory → Bool
  | _, [] => true
  | low, (k, v) :: rest =>
    decide (low ≤ k) && decide (k < 65536) && decide (v ≠ Memory.unlisted) && Memory.wfFrom (k + 1) rest

/-- The canonical form holds. -/
def Memory.wf (m : Memory) : Bool := Memory.wfFrom 0 m

end Sys2Proof.Machine
end

