-- ==== Sys2Proof/Machine/State.lean ====
section
/-! DEFINITION. The state of the block as plain data (10_state.md), the reasons a step can stop (60_exceptions.md R400)
and the state after reset (10_state.md R57, 70_reset_and_hazards.md R480, R481). -/
namespace Sys2Proof.Machine

/-- The six flags of the condition-code register. Bits 7 and 6 of its byte are "not storage" (R26) and are no field. -/
structure Ccr where
  /-- Half carry, bit 5. -/
  h : Bool
  /-- Interrupt mask, bit 4. -/
  i : Bool
  /-- Negative, bit 3. -/
  n : Bool
  /-- Zero, bit 2. -/
  z : Bool
  /-- Two's-complement overflow, bit 1. -/
  v : Bool
  /-- Carry or borrow, bit 0. -/
  c : Bool
deriving DecidableEq, Repr

/-- The hidden state `wait` (R53). -/
inductive WaitState where
  /-- The ordinary state. -/
  | run
  /-- Entered by WAI: the registers are stacked and an unmasked interrupt is awaited (R126). -/
  | wai
  /-- Entered by SLP: any enabled source ends it (R127). -/
  | sleep
deriving DecidableEq, Repr

/-- Everything the spec gives the machine (INVENTORY.md, heading State), and the model's own `free` and `cfg`. -/
structure State where
  /-- Accumulator A, the high byte of D (R20, R21). -/
  a : Byte
  /-- Accumulator B, the low byte of D (R20, R21). -/
  b : Byte
  /-- Index register X (R20). -/
  x : Word
  /-- Stack pointer (R20, R70). -/
  sp : Word
  /-- Program counter (R23). -/
  pc : Word
  /-- Condition-code register (R26). -/
  ccr : Ccr
  /-- The byte array (R28, R29). -/
  mem : Memory
  /-- Timer control/status register (R31). -/
  tcsr : Byte
  /-- Free-running counter (R33). -/
  frc : Word
  /-- Output compare register (R35). -/
  ocr : Word
  /-- Serial control/status register (R37). -/
  trcsr : Byte
  /-- Receive data register (R38). -/
  rdr : Byte
  /-- Transmit data register (R39). -/
  tdr : Byte
  /-- A byte written to TDR waits for `host_pull` (R50). -/
  txPending : Bool
  /-- TCSR was read while OCF was 1 (R51). -/
  ocArmed : Bool
  /-- TCSR was read while TOF was 1 (R52). -/
  tofArmed : Bool
  /-- Running, waiting or sleeping (R53). -/
  wait : WaitState
  /-- The engine has halted on a fault (R54). -/
  halted : Bool
  /-- The running cycle counter, unbounded (R55). -/
  cycles : Nat
  /-- The model's own: how many free values DAA has drawn (log 5). -/
  free : Nat
  /-- The model's own: the parameters of R6, which nothing changes (log 1). -/
  cfg : Config
deriving DecidableEq, Repr

/-- The faults of 60_exceptions.md R400. Each carries the state the fault leaves (log 6). Both are safe: the spec itself
ends the step in a fault there. -/
inductive Fault where
  /-- `InvalidPC(pc)`: raised by a step in strict mode that is about to fetch at an invalid `pc` (R124). Safe. -/
  | invalidPC (pc : Word) (after : State)
  /-- `IllegalOpcode(op, addr)`: raised by `exec` on an undefined opcode (R112, R125). Safe. -/
  | illegalOpcode (op : Byte) (addr : Word) (after : State)
deriving DecidableEq, Repr

/-- The state a fault leaves behind (R400): `halted` is set in it. -/
def Fault.after : Fault → State
  | .invalidPC _ t => t
  | .illegalOpcode _ _ t => t

/-- Reasons the model has no meaning to give. -/
inductive Refusal where
  /-- Raised by `exec` for an instruction without a meaning; no arm of this model raises it. Safe. -/
  | notModelled (mnemonic : String)
  /-- Raised by the host event `host_poke` at the address of a peripheral register, an event R78 does not offer
  (log 13). Safe. -/
  | pokeOfPeripheral (addr : Word)
deriving DecidableEq, Repr

/-- What a meaning or a step answers. -/
abbrev Result := Host.Outcome State Fault Refusal

/-- The machine right after reset (R57, R480), where `pc` is the value at VEC_RESET in a memory that lists nothing. The
fields reset does not write hold the values that logs 2, 3, 4 and 5 name. -/
def State.reset : State where
  a := 0x00#8
  b := 0x00#8
  x := 0x0000#16
  sp := 0x0000#16
  pc := 0x0000#16
  ccr := { h := false, i := true, n := false, z := false, v := false, c := false }
  mem := []
  tcsr := 0x00#8
  frc := 0x0000#16
  ocr := 0xFFFF#16
  trcsr := 0x20#8
  rdr := 0x00#8
  tdr := 0x00#8
  txPending := false
  ocArmed := false
  tofArmed := false
  wait := .run
  halted := false
  cycles := 0
  free := 0
  cfg := defaultConfig

end Sys2Proof.Machine
end

