-- ==== Sys2Proof/Machine/Flags.lean ====
section
/-! DEFINITION. The condition-code byte (10_state.md R26) and every computation of an 8-bit or 16-bit result with its
flags (42_arithmetic.md R190 to R193, R207, R209 to R213, R221; 43_logic_shift_bit.md R250 to R276). Each function takes
the flags as they were and answers the flags as they become; a flag a rule does not name is left as it was. -/
namespace Sys2Proof.Machine

/-- The CCR as a byte, `1:1:H:I:N:Z:V:C` (R26). -/
def Ccr.toByte (f : Ccr) : Byte :=
  0b11#2 ++ BitVec.ofBool f.h ++ BitVec.ofBool f.i ++ BitVec.ofBool f.n ++ BitVec.ofBool f.z ++ BitVec.ofBool f.v ++
    BitVec.ofBool f.c

/-- The flags of a byte written to the CCR; its bits 7 and 6 are ignored (R26, R163, R349). -/
def Ccr.ofByte (v : Byte) : Ccr where
  h := v[5]
  i := v[4]
  n := v[3]
  z := v[2]
  v := v[1]
  c := v[0]

/-- `SetNZ8(v)` (R190). -/
def Ccr.setNZ8 (f : Ccr) (v : Byte) : Ccr := { f with n := v[7], z := decide (v = 0#8) }

/-- `SetNZ16(v)` (R190). -/
def Ccr.setNZ16 (f : Ccr) (v : Word) : Ccr := { f with n := v[15], z := decide (v = 0#16) }

/-- `SetNZ8(v); V <- 0`: loads, stores, transfers and logic (R140, R145, R161, R250 to R253, R280 to R283). -/
def Ccr.move8 (f : Ccr) (v : Byte) : Ccr := { f.setNZ8 v with v := false }

/-- `SetNZ16(v); V <- 0`: 16-bit loads and stores (R141 to R143, R146 to R148). -/
def Ccr.move16 (f : Ccr) (v : Word) : Ccr := { f.setNZ16 v with v := false }

/-- A result of 8 bits with the flags after it. -/
abbrev Alu8 := Byte × Ccr

/-- A result of 16 bits with the flags after it. -/
abbrev Alu16 := Word × Ccr

/-- `Add8(a, m, c)` (R191). -/
def add8 (a m : Byte) (c : Bool) (f : Ccr) : Alu8 :=
  let s := a.toNat + m.toNat + c.toNat
  let r := BitVec.ofNat 8 s
  (r, { f.setNZ8 r with
        h := decide (a.toNat % 16 + m.toNat % 16 + c.toNat > 15)
        c := decide (s > 255)
        v := (a[7] == m[7]) && (r[7] != a[7]) })

/-- `Sub8(a, m, c)` (R192): `C` is a borrow, `H` is not written. -/
def sub8 (a m : Byte) (c : Bool) (f : Ccr) : Alu8 :=
  let d : Int := a.toNat - m.toNat - c.toNat
  let r := BitVec.ofInt 8 d
  (r, { f.setNZ8 r with
        c := decide (d < 0)
        v := (a[7] != m[7]) && (r[7] != a[7]) })

/-- `Add16(a, m)` (R193). -/
def add16 (a m : Word) (f : Ccr) : Alu16 :=
  let s := a.toNat + m.toNat
  let r := BitVec.ofNat 16 s
  (r, { f.setNZ16 r with
        c := decide (s > 65535)
        v := (a[15] == m[15]) && (r[15] != a[15]) })

/-- `Sub16(a, m)` (R193). -/
def sub16 (a m : Word) (f : Ccr) : Alu16 :=
  let d : Int := a.toNat - m.toNat
  let r := BitVec.ofInt 16 d
  (r, { f.setNZ16 r with
        c := decide (d < 0)
        v := (a[15] != m[15]) && (r[15] != a[15]) })

/-- The unsigned product and the carry of MUL (R207): `C <- p[7]`. -/
def mul8 (a b : Byte) (f : Ccr) : Alu16 :=
  let p := BitVec.ofNat 16 (a.toNat * b.toNat)
  (p, { f with c := p[7] })

/-- What DAA adds to A, `cf` of R209. -/
def daaCorrection (a : Byte) (f : Ccr) : Nat :=
  let low := a.toNat % 16
  let high := a.toNat / 16
  (if low > 9 ∨ f.h = true then 0x06 else 0) +
    (if high > 9 ∨ f.c = true ∨ (high > 8 ∧ low > 9) then 0x60 else 0)

/-- DAA (R209) with `v` for the flag V, which the rule leaves "any value". -/
def daa8 (a : Byte) (v : Bool) (f : Ccr) : Alu8 :=
  let cf := daaCorrection a f
  let r := BitVec.ofNat 8 (a.toNat + cf)
  (r, { f.setNZ8 r with c := f.c || decide (cf ≥ 0x60), v := v })

/-- NEG (R210). -/
def neg8 (v : Byte) (f : Ccr) : Alu8 :=
  let r := 0#8 - v
  (r, { f.setNZ8 r with v := decide (r = 0x80#8), c := decide (r ≠ 0#8) })

/-- INC (R212): `C` is not written. -/
def inc8 (v : Byte) (f : Ccr) : Alu8 :=
  let r := v + 1#8
  (r, { f.setNZ8 r with v := decide (v = 0x7F#8) })

/-- DEC (R213): `C` is not written. -/
def dec8 (v : Byte) (f : Ccr) : Alu8 :=
  let r := v - 1#8
  (r, { f.setNZ8 r with v := decide (v = 0x80#8) })

/-- The flags of TST (R221). -/
def tst8 (v : Byte) (f : Ccr) : Ccr := { f.setNZ8 v with v := false, c := false }

/-- COM (R258). -/
def com8 (v : Byte) (f : Ccr) : Alu8 :=
  let r := 0xFF#8 - v
  (r, { f.setNZ8 r with v := false, c := true })

/-- The flags of CLR (R259). -/
def clrFlags (f : Ccr) : Ccr := { f with n := false, z := true, v := false, c := false }

/-- The flags of an 8-bit shift whose result is `r` and whose shifted-out bit is `c`: `V <- N xor C`, both new. -/
def shiftFlags8 (r : Byte) (c : Bool) (f : Ccr) : Ccr :=
  let g := f.setNZ8 r
  { g with c := c, v := g.n ^^ c }

/-- The flags of a 16-bit shift. -/
def shiftFlags16 (r : Word) (c : Bool) (f : Ccr) : Ccr :=
  let g := f.setNZ16 r
  { g with c := c, v := g.n ^^ c }

/-- ASL (R270). -/
def asl8 (v : Byte) (f : Ccr) : Alu8 :=
  let r := BitVec.ofNat 8 (v.toNat * 2)
  (r, shiftFlags8 r v[7] f)

/-- ASR (R271): `r = v[7] : v[7:1]`. -/
def asr8 (v : Byte) (f : Ccr) : Alu8 :=
  let r : Byte := BitVec.ofBool v[7] ++ v.extractLsb' 1 7
  (r, shiftFlags8 r v[0] f)

/-- LSR (R272): `r = 0 : v[7:1]`. -/
def lsr8 (v : Byte) (f : Ccr) : Alu8 :=
  let r : Byte := 0#1 ++ v.extractLsb' 1 7
  (r, shiftFlags8 r v[0] f)

/-- ROL (R273): `r = v[6:0] : c0`. -/
def rol8 (v : Byte) (f : Ccr) : Alu8 :=
  let r : Byte := v.extractLsb' 0 7 ++ BitVec.ofBool f.c
  (r, shiftFlags8 r v[7] f)

/-- ROR (R274): `r = c0 : v[7:1]`. -/
def ror8 (v : Byte) (f : Ccr) : Alu8 :=
  let r : Byte := BitVec.ofBool f.c ++ v.extractLsb' 1 7
  (r, shiftFlags8 r v[0] f)

/-- ASLD (R275). -/
def asl16 (v : Word) (f : Ccr) : Alu16 :=
  let r := BitVec.ofNat 16 (v.toNat * 2)
  (r, shiftFlags16 r v[15] f)

/-- LSRD (R276): `r16 = 0 : v[15:1]`. -/
def lsr16 (v : Word) (f : Ccr) : Alu16 :=
  let r : Word := 0#1 ++ v.extractLsb' 1 15
  (r, shiftFlags16 r v[0] f)

end Sys2Proof.Machine
end

