-- ==== Sys2Proof/Machine/Ops.lean ====
section
/-! DEFINITION. The named operations over memory, the peripheral registers, the registers and the stack (20_memory.md
R60 to R73, 60_exceptions.md R433, R434, R441, R443), and the entry into an exception with the return from one
(60_exceptions.md R420, R421, 45_system.md R349). -/
namespace Sys2Proof.Machine

/-- The eight addresses whose reads or writes have side effects (10_state.md R31 to R39, R47). -/
inductive PeriphReg where
  /-- Timer control/status. -/
  | tcsr
  /-- Counter, high byte. -/
  | frcHi
  /-- Counter, low byte. -/
  | frcLo
  /-- Compare register, high byte. -/
  | ocrHi
  /-- Compare register, low byte. -/
  | ocrLo
  /-- Serial control/status. -/
  | trcsr
  /-- Receive data. -/
  | rdr
  /-- Transmit data. -/
  | tdr
deriving DecidableEq, Repr

/-- The peripheral register at an address, if there is one, tested in the order of R62. -/
def regAt (cfg : Config) (a : Word) : Option PeriphReg :=
  if a = cfg.tcsrAddr then some .tcsr
  else if a = cfg.frcAddr then some .frcHi
  else if a = cfg.frcAddr + 1 then some .frcLo
  else if a = cfg.ocrAddr then some .ocrHi
  else if a = cfg.ocrAddr + 1 then some .ocrLo
  else if a = cfg.trcsrAddr then some .trcsr
  else if a = cfg.rdrAddr then some .rdr
  else if a = cfg.tdrAddr then some .tdr
  else none

/-- The cost of an opcode, `CYCLES[op]` (R108). -/
def opCost (cfg : Config) (op : Byte) : Nat := cfg.cycles.getD op.toNat 0

/-- `PcValid(a)` (R6, R124): by default the RAM region and the ROM-backed region. -/
def pcOk (cfg : Config) (a : Word) : Bool :=
  match cfg.pcValid with
  | .regions => decide ((cfg.ramLo ≤ a ∧ a ≤ cfg.ramHi) ∨ (cfg.romLo ≤ a ∧ a ≤ cfg.romHi))
  | .ranges l => l.any fun r => decide (r.1 ≤ a ∧ a ≤ r.2)

/-- TCSR bit 6, the output-compare flag (R31). -/
def State.ocf (s : State) : Bool := s.tcsr[6]
/-- TCSR bit 5, the timer overflow flag (R31). -/
def State.tof (s : State) : Bool := s.tcsr[5]
/-- TCSR bit 3, the output-compare interrupt enable (R31). -/
def State.eoci (s : State) : Bool := s.tcsr[3]
/-- TRCSR bit 7, receive data register full (R37). -/
def State.rdrf (s : State) : Bool := s.trcsr[7]
/-- TRCSR bit 5, transmit data register empty (R37). -/
def State.tdre (s : State) : Bool := s.trcsr[5]
/-- TRCSR bit 4, receive interrupt enable (R37). -/
def State.rie (s : State) : Bool := s.trcsr[4]
/-- TRCSR bit 2, transmit interrupt enable (R37). -/
def State.tie (s : State) : Bool := s.trcsr[2]

/-- The value a program read of one byte returns (R62), before its side effect. -/
def State.peek (s : State) (a : Word) : Byte :=
  match regAt s.cfg a with
  | some .tcsr => s.tcsr
  | some .frcHi => hi s.frc
  | some .frcLo => lo s.frc
  | some .ocrHi => hi s.ocr
  | some .ocrLo => lo s.ocr
  | some .trcsr => s.trcsr
  | some .rdr => s.rdr
  | some .tdr => s.tdr
  | none => s.mem.read a.toNat

/-- R433a and R434a: a read of TCSR arms the latch of each flag that is set. -/
def State.armLatches (s : State) : State :=
  { s with ocArmed := s.ocArmed || s.ocf, tofArmed := s.tofArmed || s.tof }

/-- R434b: a read of the counter's high byte clears TOF if that was armed. -/
def State.clearTof (s : State) : State :=
  { s with tcsr := if s.tofArmed then s.tcsr &&& 0xDF#8 else s.tcsr, tofArmed := false }

/-- R433b: a write of a compare byte clears OCF if that was armed. -/
def State.clearOcf (s : State) : State :=
  { s with tcsr := if s.ocArmed then s.tcsr &&& 0xBF#8 else s.tcsr, ocArmed := false }

/-- R441: a read of RDR clears RDRF and ORFE. -/
def State.clearReceive (s : State) : State := { s with trcsr := s.trcsr &&& 0x3F#8 }

/-- The side effect of a program read of one byte (R62, R72). -/
def State.touch (s : State) (a : Word) : State :=
  match regAt s.cfg a with
  | some .tcsr => s.armLatches
  | some .frcHi => s.clearTof
  | some .rdr => s.clearReceive
  | some .frcLo | some .ocrHi | some .ocrLo | some .trcsr | some .tdr | none => s

/-- `MemRead(a, 1)` (R62): the byte, and the state after the read. -/
def memRead (a : Word) (s : State) : Byte × State := (s.peek a, s.touch a)

/-- `MemRead(a, 2)` (R64): the byte at `a`, then the byte at `a + 1`, the first the more significant. -/
def memRead16 (a : Word) (s : State) : Word × State :=
  let h := memRead a s
  let l := memRead (a + 1) h.2
  (cat h.1 l.1, l.2)

/-- A program write of TCSR or TRCSR: bits 7..5 stay, bits 4..0 are stored (R31, R37). -/
def statusWrite (old v : Byte) : Byte := old.extractLsb' 5 3 ++ v.extractLsb' 0 5

/-- `MemWrite(a, 1, v)` (R63). -/
def memWrite (a : Word) (v : Byte) (s : State) : State :=
  match regAt s.cfg a with
  | some .tcsr => { s with tcsr := statusWrite s.tcsr v }
  | some .frcHi => { s with frc := cat v (lo s.frc) }
  | some .frcLo => { s with frc := cat (hi s.frc) v }
  | some .ocrHi => ({ s with ocr := cat v (lo s.ocr) } : State).clearOcf
  | some .ocrLo => ({ s with ocr := cat (hi s.ocr) v } : State).clearOcf
  | some .trcsr => { s with trcsr := statusWrite s.trcsr v }
  | some .rdr => s
  | some .tdr => { s with tdr := v, trcsr := s.trcsr &&& 0xDF#8, txPending := true }
  | none => { s with mem := s.mem.write a.toNat v }

/-- `MemWrite(a, 2, v)` (R64): the more significant byte at `a`, then the other at `a + 1`. -/
def memWrite16 (a : Word) (v : Word) (s : State) : State := memWrite (a + 1) (lo v) (memWrite a (hi v) s)

/-- The pair D read as one register (R9). -/
def State.d (s : State) : Word := cat s.a s.b

/-- `D <- v` (R9). -/
def State.setD (s : State) (v : Word) : State := { s with a := hi v, b := lo v }

/-- The two accumulators, `r` of `x[r]` (R9). -/
inductive Acc where
  /-- Accumulator A. -/
  | A
  /-- Accumulator B. -/
  | B
deriving DecidableEq, Repr

/-- `x[r]` read. -/
def State.acc (s : State) : Acc → Byte
  | .A => s.a
  | .B => s.b

/-- `x[r] <- v`. -/
def State.setAcc (s : State) (r : Acc) (v : Byte) : State :=
  match r with
  | .A => { s with a := v }
  | .B => { s with b := v }

/-- `Push8(v)` (R70). -/
def push8 (v : Byte) (s : State) : State :=
  let t := memWrite s.sp v s
  { t with sp := t.sp - 1 }

/-- `Push16(v)` (R71): the low byte first. -/
def push16 (v : Word) (s : State) : State := push8 (hi v) (push8 (lo v) s)

/-- `Pull8()` (R70). -/
def pull8 (s : State) : Byte × State := memRead (s.sp + 1) { s with sp := s.sp + 1 }

/-- `Pull16()` (R71): the high byte first. -/
def pull16 (s : State) : Word × State :=
  let h := pull8 s
  let l := pull8 h.2
  (cat h.1 l.1, l.2)

/-- `StackAll()` (R420): PC, X, A, B and CCR, with I as it was before the entry. -/
def stackAll (s : State) : State := push8 s.ccr.toByte (push8 s.b (push8 s.a (push16 s.x (push16 s.pc s))))

/-- `I <- 1; PC <- MemRead(v, 2)`: the second half of an entry (R421), and the whole of a wake-up from WAI (R126), which
has stacked already. -/
def vectorTo (v : Word) (s : State) : State :=
  let p := memRead16 v { s with ccr := { s.ccr with i := true } }
  { p.2 with pc := p.1 }

/-- Taking an exception through vector `v`: `Entry(v)` of R421 for an interrupt, and the same for SWI (R348). -/
def takeException (v : Word) (s : State) : State := vectorTo v (stackAll s)

/-- Returning from one (R349, R424): pulls CCR, B, A, X and PC. -/
def returnFromException (s : State) : State :=
  let c := pull8 s
  let b := pull8 { c.2 with ccr := Ccr.ofByte c.1 }
  let a := pull8 { b.2 with b := b.1 }
  let x := pull16 { a.2 with a := a.1 }
  let p := pull16 { x.2 with x := x.1 }
  { p.2 with pc := p.1 }

end Sys2Proof.Machine
end

