-- ==== Sys2Proof/Machine/Operands.lean ====
section
/-! DEFINITION. Operand assembly (30_encoding.md R94, R95): effective addresses, 8-bit and 16-bit sources, branch targets.
The operand bytes themselves are fetched by the step before the meaning runs (log 11), so `pc` is already past them. -/
namespace Sys2Proof.Machine

/-- `EA(mode)` (R94, R95): the index displacement is zero-extended, the sum taken modulo 65536. -/
def State.ea (s : State) : Mode → Word
  | .dir a => zext16 a
  | .idx d => s.x + zext16 d
  | .ext a => a

/-- The formats IDX and EXT among all. -/
def modeOfXE : ModeXE → Mode
  | .idx d => .idx d
  | .ext a => .ext a

/-- The address part of the formats IMM_DIR and IMM_IDX among all. -/
def modeOfDX : ModeDX → Mode
  | .dir a => .dir a
  | .idx d => .idx d

/-- `Opnd8(mode)` (R95): the operand and the state after reading it. -/
def opnd8 (src : Src8) (s : State) : Byte × State :=
  match src with
  | .imm v => (v, s)
  | .mem m => memRead (s.ea m) s

/-- `Opnd16(mode)` (R95). -/
def opnd16 (src : Src16) (s : State) : Word × State :=
  match src with
  | .imm v => (v, s)
  | .mem m => memRead16 (s.ea m) s

/-- The target of a relative branch, `(PC + sext_16(o)) mod 65536` with PC past the offset byte (R95, R300). -/
def State.relTarget (s : State) (rel : Byte) : Word := s.pc + sext16 rel

end Sys2Proof.Machine
end

