-- ==== Sys2Proof/Machine/Arithmetic.lean ====
section
/-! DEFINITION. Arithmetic, compare and test instructions (42_arithmetic.md R190 to R222), and the shapes they share with
the logic and shift instructions: an accumulator with an 8-bit source, and one operand read, changed and written back. -/
namespace Sys2Proof.Machine

/-- `m = Opnd8(mode); x[r] <- op(x[r], m)` with the flags `op` gives. -/
def accOp (op : Byte → Byte → Ccr → Alu8) (r : Acc) (src : Src8) (s : State) : State :=
  let m := opnd8 src s
  let q := op (s.acc r) m.1 s.ccr
  { m.2.setAcc r q.1 with ccr := q.2 }

/-- `m = Opnd8(mode); op(x[r], m)` with the result discarded: only the flags are written. -/
def accTest (op : Byte → Byte → Ccr → Alu8) (r : Acc) (src : Src8) (s : State) : State :=
  let m := opnd8 src s
  { m.2 with ccr := (op (s.acc r) m.1 s.ccr).2 }

/-- The accumulator form of a one-operand instruction. -/
def accUnary (op : Byte → Ccr → Alu8) (r : Acc) (s : State) : State :=
  let q := op (s.acc r) s.ccr
  { s.setAcc r q.1 with ccr := q.2 }

/-- The memory form of a one-operand instruction (20_memory.md R73): `ea = EA(mode); v = MemRead(ea,1); MemWrite(ea,1,r8)`,
one read and then one write at the same address. -/
def memUnary (op : Byte → Ccr → Alu8) (m : Mode) (s : State) : State :=
  let v := memRead (s.ea m) s
  let q := op v.1 s.ccr
  { memWrite (s.ea m) q.1 v.2 with ccr := q.2 }

/-- ABA (R194). -/
def execAba (s : State) : Result :=
  let q := add8 s.a s.b false s.ccr
  .next { s with a := q.1, ccr := q.2 }

/-- ADDA (R195). -/
def execAdda (src : Src8) (s : State) : Result := .next (accOp (fun a m f => add8 a m false f) .A src s)

/-- ADDB (R195). -/
def execAddb (src : Src8) (s : State) : Result := .next (accOp (fun a m f => add8 a m false f) .B src s)

/-- ADCA (R196), with the carry from before the instruction. -/
def execAdca (src : Src8) (s : State) : Result := .next (accOp (fun a m f => add8 a m f.c f) .A src s)

/-- ADCB (R196), with the carry from before the instruction. -/
def execAdcb (src : Src8) (s : State) : Result := .next (accOp (fun a m f => add8 a m f.c f) .B src s)

/-- ADDD (R199): H is not changed. -/
def execAddd (src : Src16) (s : State) : Result :=
  let m := opnd16 src s
  let q := add16 s.d m.1 s.ccr
  .next { m.2.setD q.1 with ccr := q.2 }

/-- ABX (R208): B is zero-extended, no flag is written. -/
def execAbx (s : State) : Result := .next { s with x := s.x + zext16 s.b }

/-- SUBA (R197). -/
def execSuba (src : Src8) (s : State) : Result := .next (accOp (fun a m f => sub8 a m false f) .A src s)

/-- SUBB (R197). -/
def execSubb (src : Src8) (s : State) : Result := .next (accOp (fun a m f => sub8 a m false f) .B src s)

/-- SBCA (R198), with the borrow from before the instruction. -/
def execSbca (src : Src8) (s : State) : Result := .next (accOp (fun a m f => sub8 a m f.c f) .A src s)

/-- SBCB (R198), with the borrow from before the instruction. -/
def execSbcb (src : Src8) (s : State) : Result := .next (accOp (fun a m f => sub8 a m f.c f) .B src s)

/-- SUBD (R200). -/
def execSubd (src : Src16) (s : State) : Result :=
  let m := opnd16 src s
  let q := sub16 s.d m.1 s.ccr
  .next { m.2.setD q.1 with ccr := q.2 }

/-- SBA (R203). -/
def execSba (s : State) : Result :=
  let q := sub8 s.a s.b false s.ccr
  .next { s with a := q.1, ccr := q.2 }

/-- MUL (R207). -/
def execMul (s : State) : Result :=
  let q := mul8 s.a s.b s.ccr
  .next { s.setD q.1 with ccr := q.2 }

/-- DAA (R209): V is a free value (log 5), drawn at the counter `free`. -/
def execDaa (s : State) : Result :=
  let q := daa8 s.a (Config.freeV s.free) s.ccr
  .next { s with a := q.1, ccr := q.2, free := s.free + 1 }

/-- NEGA (R210). -/
def execNega (s : State) : Result := .next (accUnary neg8 .A s)

/-- NEGB (R210). -/
def execNegb (s : State) : Result := .next (accUnary neg8 .B s)

/-- NEG on memory (R210). -/
def execNeg (m : ModeXE) (s : State) : Result := .next (memUnary neg8 (modeOfXE m) s)

/-- INCA (R212). -/
def execInca (s : State) : Result := .next (accUnary inc8 .A s)

/-- INCB (R212). -/
def execIncb (s : State) : Result := .next (accUnary inc8 .B s)

/-- INC on memory (R212). -/
def execInc (m : ModeXE) (s : State) : Result := .next (memUnary inc8 (modeOfXE m) s)

/-- DECA (R213). -/
def execDeca (s : State) : Result := .next (accUnary dec8 .A s)

/-- DECB (R213). -/
def execDecb (s : State) : Result := .next (accUnary dec8 .B s)

/-- DEC on memory (R213). -/
def execDec (m : ModeXE) (s : State) : Result := .next (memUnary dec8 (modeOfXE m) s)

/-- INX (R214): only Z is written. -/
def execInx (s : State) : Result :=
  .next { s with x := s.x + 1, ccr := { s.ccr with z := decide (s.x + 1 = 0) } }

/-- DEX (R215): only Z is written. -/
def execDex (s : State) : Result :=
  .next { s with x := s.x - 1, ccr := { s.ccr with z := decide (s.x - 1 = 0) } }

/-- INS (R216). -/
def execIns (s : State) : Result := .next { s with sp := s.sp + 1 }

/-- DES (R217). -/
def execDes (s : State) : Result := .next { s with sp := s.sp - 1 }

/-- CMPA (R218). -/
def execCmpa (src : Src8) (s : State) : Result := .next (accTest (fun a m f => sub8 a m false f) .A src s)

/-- CMPB (R218). -/
def execCmpb (src : Src8) (s : State) : Result := .next (accTest (fun a m f => sub8 a m false f) .B src s)

/-- CBA (R219). -/
def execCba (s : State) : Result := .next { s with ccr := (sub8 s.a s.b false s.ccr).2 }

/-- CPX (R220): all four flags from the 16-bit subtraction. -/
def execCpx (src : Src16) (s : State) : Result :=
  let m := opnd16 src s
  .next { m.2 with ccr := (sub16 s.x m.1 s.ccr).2 }

/-- TSTA (R221). -/
def execTsta (s : State) : Result := .next { s with ccr := tst8 s.a s.ccr }

/-- TSTB (R221). -/
def execTstb (s : State) : Result := .next { s with ccr := tst8 s.b s.ccr }

/-- TST on memory (R221): one read and no write. -/
def execTst (m : ModeXE) (s : State) : Result :=
  let v := memRead (s.ea (modeOfXE m)) s
  .next { v.2 with ccr := tst8 v.1 s.ccr }

end Sys2Proof.Machine
end

