-- ==== Sys2Proof/Machine/ControlTransfer.lean ====
section
/-! DEFINITION. Control-transfer instructions (44_control_transfer.md R300 to R325). `pc` is already past the whole
instruction when a meaning runs, so it is the address of the following instruction (R300a). -/
namespace Sys2Proof.Machine

/-- A conditional branch (R300c): `PC <- target` if the condition holds, else PC stays; no flag is written. -/
def branchIf (taken : Bool) (rel : Byte) (s : State) : State :=
  if taken then { s with pc := s.relTarget rel } else s

/-- BRA (R301): always. -/
def execBra (rel : Byte) (s : State) : Result := .next (branchIf true rel s)

/-- BRN (R302): never. -/
def execBrn (rel : Byte) (s : State) : Result := .next (branchIf false rel s)

/-- BHI (R303): `(C or Z) == 0`. -/
def execBhi (rel : Byte) (s : State) : Result := .next (branchIf (!(s.ccr.c || s.ccr.z)) rel s)

/-- BLS (R304): `(C or Z) == 1`. -/
def execBls (rel : Byte) (s : State) : Result := .next (branchIf (s.ccr.c || s.ccr.z) rel s)

/-- BCC (R305): `C == 0`. -/
def execBcc (rel : Byte) (s : State) : Result := .next (branchIf (!s.ccr.c) rel s)

/-- BCS (R306): `C == 1`. -/
def execBcs (rel : Byte) (s : State) : Result := .next (branchIf s.ccr.c rel s)

/-- BNE (R307): `Z == 0`. -/
def execBne (rel : Byte) (s : State) : Result := .next (branchIf (!s.ccr.z) rel s)

/-- BEQ (R308): `Z == 1`. -/
def execBeq (rel : Byte) (s : State) : Result := .next (branchIf s.ccr.z rel s)

/-- BVC (R309): `V == 0`. -/
def execBvc (rel : Byte) (s : State) : Result := .next (branchIf (!s.ccr.v) rel s)

/-- BVS (R310): `V == 1`. -/
def execBvs (rel : Byte) (s : State) : Result := .next (branchIf s.ccr.v rel s)

/-- BPL (R311): `N == 0`. -/
def execBpl (rel : Byte) (s : State) : Result := .next (branchIf (!s.ccr.n) rel s)

/-- BMI (R312): `N == 1`. -/
def execBmi (rel : Byte) (s : State) : Result := .next (branchIf s.ccr.n rel s)

/-- BGE (R313): `(N xor V) == 0`. -/
def execBge (rel : Byte) (s : State) : Result := .next (branchIf (!(s.ccr.n ^^ s.ccr.v)) rel s)

/-- BLT (R314): `(N xor V) == 1`. -/
def execBlt (rel : Byte) (s : State) : Result := .next (branchIf (s.ccr.n ^^ s.ccr.v) rel s)

/-- BGT (R315): `(Z or (N xor V)) == 0`. -/
def execBgt (rel : Byte) (s : State) : Result := .next (branchIf (!(s.ccr.z || (s.ccr.n ^^ s.ccr.v))) rel s)

/-- BLE (R316): `(Z or (N xor V)) == 1`. -/
def execBle (rel : Byte) (s : State) : Result := .next (branchIf (s.ccr.z || (s.ccr.n ^^ s.ccr.v)) rel s)

/-- JMP (R320): the effective address itself is the target. -/
def execJmp (m : ModeXE) (s : State) : Result := .next { s with pc := s.ea (modeOfXE m) }

/-- `Push16(PC); PC <- target`, the call of JSR and BSR. -/
def callTo (target : Word) (s : State) : State := { push16 s.pc s with pc := target }

/-- JSR (R322): the effective address is computed before the push. -/
def execJsr (m : Mode) (s : State) : Result := .next (callTo (s.ea m) s)

/-- BSR (R323). -/
def execBsr (rel : Byte) (s : State) : Result := .next (callTo (s.relTarget rel) s)

/-- RTS (R324). -/
def execRts (s : State) : Result :=
  let p := pull16 s
  .next { p.2 with pc := p.1 }

end Sys2Proof.Machine
end

