-- ==== Sys2Proof/Machine/LoadStore.lean ====
section
/-! DEFINITION. Loads, stores, transfers and stack instructions (41_load_store_transfer.md R140 to R173). -/
namespace Sys2Proof.Machine

/-- Load an accumulator: `m = Opnd8(mode); x[r] <- m; SetNZ8(m); V <- 0`. -/
def loadAcc (r : Acc) (src : Src8) (s : State) : State :=
  let m := opnd8 src s
  { m.2.setAcc r m.1 with ccr := s.ccr.move8 m.1 }

/-- Store a byte: `ea = EA(mode); SetNZ8(v); V <- 0; MemWrite(ea, 1, v)`. -/
def store8 (v : Byte) (m : Mode) (s : State) : State :=
  memWrite (s.ea m) v { s with ccr := s.ccr.move8 v }

/-- Store a word: `ea = EA(mode); SetNZ16(v); V <- 0; MemWrite(ea, 2, v)`. -/
def store16 (v : Word) (m : Mode) (s : State) : State :=
  memWrite16 (s.ea m) v { s with ccr := s.ccr.move16 v }

/-- LDAA (R140). -/
def execLdaa (src : Src8) (s : State) : Result := .next (loadAcc .A src s)

/-- LDAB (R140). -/
def execLdab (src : Src8) (s : State) : Result := .next (loadAcc .B src s)

/-- LDD (R141): the byte at EA goes to A, the byte at EA+1 to B. -/
def execLdd (src : Src16) (s : State) : Result :=
  let m := opnd16 src s
  .next { m.2.setD m.1 with ccr := s.ccr.move16 m.1 }

/-- LDX (R142): the effective address uses the old X. -/
def execLdx (src : Src16) (s : State) : Result :=
  let m := opnd16 src s
  .next { m.2 with x := m.1, ccr := s.ccr.move16 m.1 }

/-- LDS (R143). -/
def execLds (src : Src16) (s : State) : Result :=
  let m := opnd16 src s
  .next { m.2 with sp := m.1, ccr := s.ccr.move16 m.1 }

/-- STAA (R145). -/
def execStaa (m : Mode) (s : State) : Result := .next (store8 s.a m s)

/-- STAB (R145). -/
def execStab (m : Mode) (s : State) : Result := .next (store8 s.b m s)

/-- STD (R146). -/
def execStd (m : Mode) (s : State) : Result := .next (store16 s.d m s)

/-- STX (R147). -/
def execStx (m : Mode) (s : State) : Result := .next (store16 s.x m s)

/-- STS (R148). -/
def execSts (m : Mode) (s : State) : Result := .next (store16 s.sp m s)

/-- TAB (R161). -/
def execTab (s : State) : Result := .next { s with b := s.a, ccr := s.ccr.move8 s.a }

/-- TBA (R162). -/
def execTba (s : State) : Result := .next { s with a := s.b, ccr := s.ccr.move8 s.b }

/-- TAP (R163). -/
def execTap (s : State) : Result := .next { s with ccr := Ccr.ofByte s.a }

/-- TPA (R164). -/
def execTpa (s : State) : Result := .next { s with a := s.ccr.toByte }

/-- TSX (R165). -/
def execTsx (s : State) : Result := .next { s with x := s.sp + 1 }

/-- TXS (R166). -/
def execTxs (s : State) : Result := .next { s with sp := s.x - 1 }

/-- XGDX (R167). -/
def execXgdx (s : State) : Result := .next { s.setD s.x with x := s.d }

/-- PSHA (R170). -/
def execPsha (s : State) : Result := .next (push8 s.a s)

/-- PSHB (R170). -/
def execPshb (s : State) : Result := .next (push8 s.b s)

/-- PULA (R171): no flag is written. -/
def execPula (s : State) : Result :=
  let m := pull8 s
  .next { m.2 with a := m.1 }

/-- PULB (R171): no flag is written. -/
def execPulb (s : State) : Result :=
  let m := pull8 s
  .next { m.2 with b := m.1 }

/-- PSHX (R172). -/
def execPshx (s : State) : Result := .next (push16 s.x s)

/-- PULX (R173). -/
def execPulx (s : State) : Result :=
  let m := pull16 s
  .next { m.2 with x := m.1 }

end Sys2Proof.Machine
end

