-- ==== Sys2Proof/Machine/LogicShift.lean ====
section
/-! DEFINITION. Logic, shift, rotate and bit-manipulation instructions (43_logic_shift_bit.md R250 to R283). -/
namespace Sys2Proof.Machine

/-- A bitwise operation with the flags of a logic instruction: `SetNZ8(v); V <- 0`. -/
def logic8 (op : Byte → Byte → Byte) (a m : Byte) (f : Ccr) : Alu8 := (op a m, f.move8 (op a m))

/-- `v and w`. -/
def and8 (v w : Byte) : Byte := v &&& w

/-- `v or w`. -/
def or8 (v w : Byte) : Byte := v ||| w

/-- `v xor w`. -/
def xor8 (v w : Byte) : Byte := v ^^^ w

/-- ANDA (R250). -/
def execAnda (src : Src8) (s : State) : Result := .next (accOp (logic8 and8) .A src s)

/-- ANDB (R250). -/
def execAndb (src : Src8) (s : State) : Result := .next (accOp (logic8 and8) .B src s)

/-- ORAA (R251). -/
def execOraa (src : Src8) (s : State) : Result := .next (accOp (logic8 or8) .A src s)

/-- ORAB (R251). -/
def execOrab (src : Src8) (s : State) : Result := .next (accOp (logic8 or8) .B src s)

/-- EORA (R252). -/
def execEora (src : Src8) (s : State) : Result := .next (accOp (logic8 xor8) .A src s)

/-- EORB (R252). -/
def execEorb (src : Src8) (s : State) : Result := .next (accOp (logic8 xor8) .B src s)

/-- BITA (R253): the accumulator is not written. -/
def execBita (src : Src8) (s : State) : Result := .next (accTest (logic8 and8) .A src s)

/-- BITB (R253): the accumulator is not written. -/
def execBitb (src : Src8) (s : State) : Result := .next (accTest (logic8 and8) .B src s)

/-- COMA (R258). -/
def execComa (s : State) : Result := .next (accUnary com8 .A s)

/-- COMB (R258). -/
def execComb (s : State) : Result := .next (accUnary com8 .B s)

/-- COM on memory (R258). -/
def execCom (m : ModeXE) (s : State) : Result := .next (memUnary com8 (modeOfXE m) s)

/-- CLRA (R259). -/
def execClra (s : State) : Result := .next { s with a := 0, ccr := clrFlags s.ccr }

/-- CLRB (R259). -/
def execClrb (s : State) : Result := .next { s with b := 0, ccr := clrFlags s.ccr }

/-- CLR on memory (R259): one write and no read. -/
def execClr (m : ModeXE) (s : State) : Result :=
  .next { memWrite (s.ea (modeOfXE m)) 0 s with ccr := clrFlags s.ccr }

/-- ASLA (R270). -/
def execAsla (s : State) : Result := .next (accUnary asl8 .A s)

/-- ASLB (R270). -/
def execAslb (s : State) : Result := .next (accUnary asl8 .B s)

/-- ASL on memory (R270). -/
def execAsl (m : ModeXE) (s : State) : Result := .next (memUnary asl8 (modeOfXE m) s)

/-- ASRA (R271). -/
def execAsra (s : State) : Result := .next (accUnary asr8 .A s)

/-- ASRB (R271). -/
def execAsrb (s : State) : Result := .next (accUnary asr8 .B s)

/-- ASR on memory (R271). -/
def execAsr (m : ModeXE) (s : State) : Result := .next (memUnary asr8 (modeOfXE m) s)

/-- LSRA (R272). -/
def execLsra (s : State) : Result := .next (accUnary lsr8 .A s)

/-- LSRB (R272). -/
def execLsrb (s : State) : Result := .next (accUnary lsr8 .B s)

/-- LSR on memory (R272). -/
def execLsr (m : ModeXE) (s : State) : Result := .next (memUnary lsr8 (modeOfXE m) s)

/-- ROLA (R273). -/
def execRola (s : State) : Result := .next (accUnary rol8 .A s)

/-- ROLB (R273). -/
def execRolb (s : State) : Result := .next (accUnary rol8 .B s)

/-- ROL on memory (R273). -/
def execRol (m : ModeXE) (s : State) : Result := .next (memUnary rol8 (modeOfXE m) s)

/-- RORA (R274). -/
def execRora (s : State) : Result := .next (accUnary ror8 .A s)

/-- RORB (R274). -/
def execRorb (s : State) : Result := .next (accUnary ror8 .B s)

/-- ROR on memory (R274). -/
def execRor (m : ModeXE) (s : State) : Result := .next (memUnary ror8 (modeOfXE m) s)

/-- ASLD (R275). -/
def execAsld (s : State) : Result :=
  let q := asl16 s.d s.ccr
  .next { s.setD q.1 with ccr := q.2 }

/-- LSRD (R276). -/
def execLsrd (s : State) : Result :=
  let q := lsr16 s.d s.ccr
  .next { s.setD q.1 with ccr := q.2 }

/-- AIM (R280). -/
def execAim (mask : Byte) (m : ModeDX) (s : State) : Result :=
  .next (memUnary (fun v f => logic8 and8 v mask f) (modeOfDX m) s)

/-- OIM (R281). -/
def execOim (mask : Byte) (m : ModeDX) (s : State) : Result :=
  .next (memUnary (fun v f => logic8 or8 v mask f) (modeOfDX m) s)

/-- EIM (R282). -/
def execEim (mask : Byte) (m : ModeDX) (s : State) : Result :=
  .next (memUnary (fun v f => logic8 xor8 v mask f) (modeOfDX m) s)

/-- TIM (R283): one read and no write. -/
def execTim (mask : Byte) (m : ModeDX) (s : State) : Result :=
  let v := memRead (s.ea (modeOfDX m)) s
  .next { v.2 with ccr := s.ccr.move8 (and8 v.1 mask) }

end Sys2Proof.Machine
end

