-- ==== Sys2Proof/Machine/System.lean ====
section
/-! DEFINITION. System instructions (45_system.md R340 to R352) and the undefined opcodes (30_encoding.md R112). -/
namespace Sys2Proof.Machine

/-- NOP (R341). -/
def execNop (s : State) : Result := .next s

/-- CLC (R342). -/
def execClc (s : State) : Result := .next { s with ccr := { s.ccr with c := false } }

/-- SEC (R343). -/
def execSec (s : State) : Result := .next { s with ccr := { s.ccr with c := true } }

/-- CLV (R344). -/
def execClv (s : State) : Result := .next { s with ccr := { s.ccr with v := false } }

/-- SEV (R345). -/
def execSev (s : State) : Result := .next { s with ccr := { s.ccr with v := true } }

/-- CLI (R346). -/
def execCli (s : State) : Result := .next { s with ccr := { s.ccr with i := false } }

/-- SEI (R347). -/
def execSei (s : State) : Result := .next { s with ccr := { s.ccr with i := true } }

/-- SWI (R348): `StackAll(); I <- 1; PC <- MemRead(VEC_SWI, 2)`, whatever I is. -/
def execSwi (s : State) : Result := .next (takeException s.cfg.vecSwi s)

/-- RTI (R349). -/
def execRti (s : State) : Result := .next (returnFromException s)

/-- WAI (R351): the registers are stacked now, I is not changed. -/
def execWai (s : State) : Result := .next { stackAll s with wait := .wai }

/-- SLP (R352): nothing is stacked. -/
def execSlp (s : State) : Result := .next { s with wait := .sleep }

/-- ILLEGAL (R112, R125): the opcode byte has been fetched, so `pc` is one past it; `halted` is set, nothing else.
In the step that ends a sleep `wait` is Run by now (log 7). -/
def execIllegal (op : Byte) (s : State) : Result :=
  match s.cfg.illegalPolicy with
  | .fault => .fault (.illegalOpcode op (s.pc - 1) { s with halted := true })

end Sys2Proof.Machine
end

