-- ==== Sys2Proof/Machine/Dispatch.lean ====
section
/-! DEFINITION. The dispatch: one arm for each constructor of `Instr`, each a direct call of its meaning. `pc` in `s` is
past the whole instruction (log 11). -/
namespace Sys2Proof.Machine

def exec (i : Instr) (s : State) : Host.Outcome State Fault Refusal :=
  match i with
  | .ldaa src => Sys2Proof.Machine.execLdaa src s
  | .ldab src => Sys2Proof.Machine.execLdab src s
  | .ldd src => Sys2Proof.Machine.execLdd src s
  | .ldx src => Sys2Proof.Machine.execLdx src s
  | .lds src => Sys2Proof.Machine.execLds src s
  | .staa m => Sys2Proof.Machine.execStaa m s
  | .stab m => Sys2Proof.Machine.execStab m s
  | .std m => Sys2Proof.Machine.execStd m s
  | .stx m => Sys2Proof.Machine.execStx m s
  | .sts m => Sys2Proof.Machine.execSts m s
  | .tab => Sys2Proof.Machine.execTab s
  | .tba => Sys2Proof.Machine.execTba s
  | .tap => Sys2Proof.Machine.execTap s
  | .tpa => Sys2Proof.Machine.execTpa s
  | .tsx => Sys2Proof.Machine.execTsx s
  | .txs => Sys2Proof.Machine.execTxs s
  | .xgdx => Sys2Proof.Machine.execXgdx s
  | .psha => Sys2Proof.Machine.execPsha s
  | .pshb => Sys2Proof.Machine.execPshb s
  | .pula => Sys2Proof.Machine.execPula s
  | .pulb => Sys2Proof.Machine.execPulb s
  | .pshx => Sys2Proof.Machine.execPshx s
  | .pulx => Sys2Proof.Machine.execPulx s
  | .aba => Sys2Proof.Machine.execAba s
  | .adda src => Sys2Proof.Machine.execAdda src s
  | .addb src => Sys2Proof.Machine.execAddb src s
  | .adca src => Sys2Proof.Machine.execAdca src s
  | .adcb src => Sys2Proof.Machine.execAdcb src s
  | .suba src => Sys2Proof.Machine.execSuba src s
  | .subb src => Sys2Proof.Machine.execSubb src s
  | .sbca src => Sys2Proof.Machine.execSbca src s
  | .sbcb src => Sys2Proof.Machine.execSbcb src s
  | .addd src => Sys2Proof.Machine.execAddd src s
  | .subd src => Sys2Proof.Machine.execSubd src s
  | .sba => Sys2Proof.Machine.execSba s
  | .mul => Sys2Proof.Machine.execMul s
  | .abx => Sys2Proof.Machine.execAbx s
  | .daa => Sys2Proof.Machine.execDaa s
  | .nega => Sys2Proof.Machine.execNega s
  | .negb => Sys2Proof.Machine.execNegb s
  | .neg m => Sys2Proof.Machine.execNeg m s
  | .inca => Sys2Proof.Machine.execInca s
  | .incb => Sys2Proof.Machine.execIncb s
  | .inc m => Sys2Proof.Machine.execInc m s
  | .deca => Sys2Proof.Machine.execDeca s
  | .decb => Sys2Proof.Machine.execDecb s
  | .dec m => Sys2Proof.Machine.execDec m s
  | .inx => Sys2Proof.Machine.execInx s
  | .dex => Sys2Proof.Machine.execDex s
  | .ins => Sys2Proof.Machine.execIns s
  | .des => Sys2Proof.Machine.execDes s
  | .cmpa src => Sys2Proof.Machine.execCmpa src s
  | .cmpb src => Sys2Proof.Machine.execCmpb src s
  | .cba => Sys2Proof.Machine.execCba s
  | .cpx src => Sys2Proof.Machine.execCpx src s
  | .tsta => Sys2Proof.Machine.execTsta s
  | .tstb => Sys2Proof.Machine.execTstb s
  | .tst m => Sys2Proof.Machine.execTst m s
  | .anda src => Sys2Proof.Machine.execAnda src s
  | .andb src => Sys2Proof.Machine.execAndb src s
  | .oraa src => Sys2Proof.Machine.execOraa src s
  | .orab src => Sys2Proof.Machine.execOrab src s
  | .eora src => Sys2Proof.Machine.execEora src s
  | .eorb src => Sys2Proof.Machine.execEorb src s
  | .bita src => Sys2Proof.Machine.execBita src s
  | .bitb src => Sys2Proof.Machine.execBitb src s
  | .coma => Sys2Proof.Machine.execComa s
  | .comb => Sys2Proof.Machine.execComb s
  | .com m => Sys2Proof.Machine.execCom m s
  | .clra => Sys2Proof.Machine.execClra s
  | .clrb => Sys2Proof.Machine.execClrb s
  | .clr m => Sys2Proof.Machine.execClr m s
  | .asla => Sys2Proof.Machine.execAsla s
  | .aslb => Sys2Proof.Machine.execAslb s
  | .asl m => Sys2Proof.Machine.execAsl m s
  | .asra => Sys2Proof.Machine.execAsra s
  | .asrb => Sys2Proof.Machine.execAsrb s
  | .asr m => Sys2Proof.Machine.execAsr m s
  | .lsra => Sys2Proof.Machine.execLsra s
  | .lsrb => Sys2Proof.Machine.execLsrb s
  | .lsr m => Sys2Proof.Machine.execLsr m s
  | .rola => Sys2Proof.Machine.execRola s
  | .rolb => Sys2Proof.Machine.execRolb s
  | .rol m => Sys2Proof.Machine.execRol m s
  | .rora => Sys2Proof.Machine.execRora s
  | .rorb => Sys2Proof.Machine.execRorb s
  | .ror m => Sys2Proof.Machine.execRor m s
  | .asld => Sys2Proof.Machine.execAsld s
  | .lsrd => Sys2Proof.Machine.execLsrd s
  | .aim mask m => Sys2Proof.Machine.execAim mask m s
  | .oim mask m => Sys2Proof.Machine.execOim mask m s
  | .eim mask m => Sys2Proof.Machine.execEim mask m s
  | .tim mask m => Sys2Proof.Machine.execTim mask m s
  | .bra rel => Sys2Proof.Machine.execBra rel s
  | .brn rel => Sys2Proof.Machine.execBrn rel s
  | .bhi rel => Sys2Proof.Machine.execBhi rel s
  | .bls rel => Sys2Proof.Machine.execBls rel s
  | .bcc rel => Sys2Proof.Machine.execBcc rel s
  | .bcs rel => Sys2Proof.Machine.execBcs rel s
  | .bne rel => Sys2Proof.Machine.execBne rel s
  | .beq rel => Sys2Proof.Machine.execBeq rel s
  | .bvc rel => Sys2Proof.Machine.execBvc rel s
  | .bvs rel => Sys2Proof.Machine.execBvs rel s
  | .bpl rel => Sys2Proof.Machine.execBpl rel s
  | .bmi rel => Sys2Proof.Machine.execBmi rel s
  | .bge rel => Sys2Proof.Machine.execBge rel s
  | .blt rel => Sys2Proof.Machine.execBlt rel s
  | .bgt rel => Sys2Proof.Machine.execBgt rel s
  | .ble rel => Sys2Proof.Machine.execBle rel s
  | .jmp m => Sys2Proof.Machine.execJmp m s
  | .jsr m => Sys2Proof.Machine.execJsr m s
  | .bsr rel => Sys2Proof.Machine.execBsr rel s
  | .rts => Sys2Proof.Machine.execRts s
  | .nop => Sys2Proof.Machine.execNop s
  | .clc => Sys2Proof.Machine.execClc s
  | .sec => Sys2Proof.Machine.execSec s
  | .clv => Sys2Proof.Machine.execClv s
  | .sev => Sys2Proof.Machine.execSev s
  | .cli => Sys2Proof.Machine.execCli s
  | .sei => Sys2Proof.Machine.execSei s
  | .swi => Sys2Proof.Machine.execSwi s
  | .rti => Sys2Proof.Machine.execRti s
  | .wai => Sys2Proof.Machine.execWai s
  | .slp => Sys2Proof.Machine.execSlp s
  | .illegal op => Sys2Proof.Machine.execIllegal op s

end Sys2Proof.Machine
end

