-- ==== Sys2Proof/Machine/Timer.lean ====
section
/-! DEFINITION. The timer advance and the cycle accounting (60_exceptions.md R430 to R432, 40_execution_step.md R128). -/
namespace Sys2Proof.Machine

/-- Whether an advance of `n` from counter value `old` passes through the compare value: it is one of
`old+1, …, old+n` modulo 65536 (R431). -/
def compareHit (ocr old : Word) (n : Nat) : Bool := decide (n > 0 ∧ (ocr - old - 1).toNat < n)

/-- Whether the advance carries the counter past 0xFFFF (R432). -/
def overflowHit (old : Word) (n : Nat) : Bool := decide (old.toNat + n ≥ 65536)

/-- `TimerAdvance(n)` (R430). -/
def timerAdvance (n : Nat) (s : State) : State :=
  { s with
    frc := BitVec.ofNat 16 (s.frc.toNat + n)
    tcsr := s.tcsr ||| (if compareHit s.ocr s.frc n then 0x40#8 else 0#8)
              ||| (if overflowHit s.frc n then 0x20#8 else 0#8) }

/-- `Advance(n)` (R128). -/
def State.advance (s : State) (n : Nat) : State := timerAdvance n { s with cycles := s.cycles + n }

end Sys2Proof.Machine
end

