-- ==== Sys2Proof/Machine/Sequencer.lean ====
section
/-! DEFINITION. What one step does, and in which order: interrupt recognition, entry, wait states, fetch, execution and
cycle accounting (40_execution_step.md R120 to R128, 60_exceptions.md R410). `Sys2Proof/Machine/Step.lean` calls it. -/
namespace Sys2Proof.Machine

/-- `Pending()` (R410): the vector of the highest-priority source whose flag and enable bit are both set. -/
def State.pending (s : State) : Option Word :=
  if s.ocf && s.eoci then some s.cfg.vecOcf
  else if (s.rdrf && s.rie) || (s.tdre && s.tie) then some s.cfg.vecSci
  else none

/-- The interrupt a step recognizes: none while I is set (R122, R414). -/
def State.recognized (s : State) : Option Word := if s.ccr.i then none else s.pending

/-- `Fetch8()` (R92). -/
def fetch8 (s : State) : Byte × State :=
  let v := memRead s.pc s
  (v.1, { v.2 with pc := v.2.pc + 1 })

/-- `n` bytes fetched through PC, in address order (R92). -/
def fetchBytes : Nat → State → List Byte × State
  | 0, s => ([], s)
  | n + 1, s =>
    let v := fetch8 s
    let r := fetchBytes n v.2
    (v.1 :: r.1, r.2)

/-- The state after the opcode and operand bytes of `op` have been fetched, and the instruction they are. The opcode alone
tells how many follow (R91, R96). -/
def fetchOperands (op : Byte) (s : State) : Instr × State :=
  match operandCount op with
  | 0 => (decodeOp op 0 0, s)
  | 1 =>
    let b1 := fetch8 s
    (decodeOp op b1.1 0, b1.2)
  | _ =>
    let b1 := fetch8 s
    let b2 := fetch8 b1.2
    (decodeOp op b1.1 b2.1, b2.2)

/-- Charging the cost of what was executed, last (R128); a fault charges nothing (R112, R124). -/
def charge (n : Nat) : Result → Result
  | .next s => .next (s.advance n)
  | .fault r => .fault r
  | .refused r => .refused r

/-- `op <- Fetch8(); Execute(op); Advance(CYCLES[op])` (R122). -/
def fetchExecute (s : State) : Result :=
  let op := fetch8 s
  let i := fetchOperands op.1 op.2
  charge (opCost s.cfg op.1) (exec i.1 i.2)

/-- Strict mode's check of the program counter, then the instruction (R124). -/
def checkedFetch (s : State) : Result :=
  if s.cfg.strict && !pcOk s.cfg s.pc then .fault (.invalidPC s.pc { s with halted := true })
  else fetchExecute s

/-- An idle tick of a wait state (R126, R127). -/
def idleTick (s : State) : State := s.advance s.cfg.idleCost

/-- Waking from WAI through vector `v`: no second stacking (R126). -/
def wakeFromWai (v : Word) (s : State) : State :=
  (vectorTo v { s with wait := .run }).advance (opCost s.cfg s.cfg.irqOpcode)

/-- Interrupt entry as a whole step (R122): charged the cost of IRQ_OPCODE. -/
def interruptEntry (v : Word) (s : State) : State := (takeException v s).advance (opCost s.cfg s.cfg.irqOpcode)

/-- A step of a machine that runs: an interrupt entry if one is recognized, else an instruction (R122, R123). -/
def runningStep (s : State) : Result :=
  match s.recognized with
  | some v => .next (interruptEntry v s)
  | none => checkedFetch s

/-- The whole step, in the order of R122. A sleeping machine that finds a source pending runs again before anything else
of its step (R122, R127, R352), so that a fault of that same step, an invalid PC or an undefined opcode, leaves `wait` at
Run. R112 and R400 say of a fault that nothing else changes: DESIGN CHOICE, log 7. -/
def takeStep (s : State) : Result :=
  if s.halted then .next s
  else match s.wait with
    | .run => runningStep s
    | .wai =>
      match s.recognized with
      | some v => .next (wakeFromWai v s)
      | none => .next (idleTick s)
    | .sleep =>
      if s.pending.isNone then .next (idleTick s) else runningStep { s with wait := .run }

/-- The byte that a fetch at address `a` reads, put there from outside the machine: a plain byte of memory, or the
peripheral register that answers at `a`. -/
def placeByte (a : Word) (v : Byte) (s : State) : State :=
  match regAt s.cfg a with
  | some .tcsr => { s with tcsr := v }
  | some .frcHi => { s with frc := cat v (lo s.frc) }
  | some .frcLo => { s with frc := cat (hi s.frc) v }
  | some .ocrHi => { s with ocr := cat v (lo s.ocr) }
  | some .ocrLo => { s with ocr := cat (hi s.ocr) v }
  | some .trcsr => { s with trcsr := v }
  | some .rdr => { s with rdr := v }
  | some .tdr => { s with tdr := v }
  | none => { s with mem := s.mem.write a.toNat v }

/-- The three bytes at PC placed from outside: as many as the longest instruction has (log 14). -/
def placeInstruction (b0 b1 b2 : Byte) (s : State) : State :=
  placeByte (s.pc + 2) b2 (placeByte (s.pc + 1) b1 (placeByte s.pc b0 s))

end Sys2Proof.Machine
end

