-- ==== Sys2Proof/Machine/Step.lean ====
section
/-! DEFINITION. One step of the block (40_execution_step.md R120, R122), and the placing of an instruction where the next
step fetches it. Both only call `Sys2Proof/Machine/Sequencer.lean`. -/
namespace Sys2Proof.Machine

/-- `step()` (R122). -/
def step (s : State) : Host.Outcome State Fault Refusal := takeStep s

/-- `s` with the instruction of `nbits` bits `w` stored at PC, byte `k` of it at `PC + k`; bytes above `nbits` are 0. It
stands for a program loaded from outside (log 14), and changes nothing else. -/
def State.withFetchWord (s : State) (nbits w : Nat) : State :=
  let v := BitVec.ofNat 24 (w % 2 ^ nbits)
  placeInstruction (v.extractLsb' 0 8) (v.extractLsb' 8 8) (v.extractLsb' 16 8) s

end Sys2Proof.Machine
end

