-- ==== Sys2Proof/Machine/Events.lean ====
section
/-! DEFINITION. The interface of the block: the CPU's step and the host's five events (00_scope.md R7, 20_memory.md R76,
R78, 60_exceptions.md R440 to R444, 70_reset_and_hazards.md R480), and what a list of them does. -/
namespace Sys2Proof.Machine

/-- `reset()` (R480): the registers, RDR, TDR, the memory and the cycle counter are not changed. -/
def resetEvent (s : State) : State :=
  let p := memRead16 s.cfg.vecReset s
  { p.2 with
    pc := p.1
    ccr := { s.ccr with i := true }
    tcsr := 0x00#8
    frc := 0x0000#16
    ocr := 0xFFFF#16
    trcsr := 0x20#8
    txPending := false
    ocArmed := false
    tofArmed := false
    wait := .run
    halted := false }

/-- `host_push(b)` (R440): whether the byte was accepted, and the state after. A rejected push changes nothing. -/
def hostPush (b : Byte) (s : State) : Bool × State :=
  if s.rdrf then (false, s) else (true, { s with rdr := b, trcsr := s.trcsr ||| 0x80#8 })

/-- `host_pull()` (R442): the byte, or nothing, and the state after. -/
def hostPull (s : State) : Option Byte × State :=
  if s.txPending then (some s.tdr, { s with txPending := false, trcsr := s.trcsr ||| 0x20#8 }) else (none, s)

/-- `host_overrun()` (R444). -/
def hostOverrun (s : State) : State := { s with trcsr := s.trcsr ||| 0x40#8 }

/-- `host_poke(a, v)` (R78): a byte stored with no side effect, at an address that is no peripheral register's. -/
def hostPoke (a : Word) (v : Byte) (s : State) : Result :=
  match regAt s.cfg a with
  | none => .next { s with mem := s.mem.write a.toNat v }
  | some _ => .refused (.pokeOfPeripheral a)

/-- The kinds of event of R7. -/
inductive Event where
  /-- The CPU's step (R120). -/
  | step
  /-- The host's reset (R480). -/
  | reset
  /-- A received byte offered (R440). -/
  | push (b : Byte)
  /-- A transmitted byte asked for (R442). -/
  | pull
  /-- The host reports an overrun (R444). -/
  | overrun
  /-- A byte of memory injected (R78). -/
  | poke (a : Word) (v : Byte)
deriving DecidableEq, Repr

/-- What the host sees of an event, beside the new state (R7, R400, R440, R442). -/
inductive Reply where
  /-- No data comes back. -/
  | done
  /-- `host_push` accepted the byte. -/
  | accepted
  /-- `host_push` rejected the byte. -/
  | rejected
  /-- `host_pull` returned a byte. -/
  | byte (b : Byte)
  /-- `host_pull` returned nothing. -/
  | nothing
  /-- The step ended in a fault (R400). -/
  | faulted (r : Fault)
  /-- The model gives the event no meaning. -/
  | refused (r : Refusal)
deriving DecidableEq, Repr

/-- The state a result leaves: a fault leaves the halted state it carries (R400), a refusal the state as it was. -/
def settle (s : State) : Result → Reply × State
  | .next t => (.done, t)
  | .fault r => (.faulted r, r.after)
  | .refused r => (.refused r, s)

/-- One event, whole and between two others (R76). -/
def deliver (e : Event) (s : State) : Reply × State :=
  match e with
  | .step => settle s (step s)
  | .reset => (.done, resetEvent s)
  | .push b => (if (hostPush b s).1 then .accepted else .rejected, (hostPush b s).2)
  | .pull => (match (hostPull s).1 with | some b => .byte b | none => .nothing, (hostPull s).2)
  | .overrun => (.done, hostOverrun s)
  | .poke a v => settle s (hostPoke a v s)

/-- A list of events, one after the other: any interleaving of steps and host events (R76). -/
def deliverAll (es : List Event) (s : State) : State := es.foldl (fun t e => (deliver e t).2) s

/-- The firmware image copy at startup (R78, R484): byte `k` of the image at `base + k`. -/
def imageEvents (base : Word) (image : List Byte) : List Event :=
  image.zipIdx.map fun p => .poke (base + BitVec.ofNat 16 p.2) p.1

/-- Power-up (R481, R484): an image is loaded and reset follows. -/
def bootEvents (base : Word) (image : List Byte) : List Event := imageEvents base image ++ [.reset]

end Sys2Proof.Machine
end

