-- ==== Sys2Proof/Safety.lean ====
section
/-! DEFINITION. What counts as a safe run and as a state of this machine, in the terms the statements use: the invariants,
what may never pass for the end of a run (R131, U10), and the regions of the address map (R66). -/
namespace Sys2Proof.Machine

/-- The regions of the address map (20_memory.md R66). All behave as R62 and R63 say, by address alone. -/
inductive Region where
  /-- The internal-register range. -/
  | internalRegisters
  /-- Internal RAM. -/
  | ram
  /-- The ROM-backed region. -/
  | rom
  /-- Every other address. -/
  | unassigned
deriving DecidableEq, Repr

/-- The region an address lies in (R66). -/
def regionOf (cfg : Config) (a : Word) : Region :=
  if cfg.iregLo ≤ a ∧ a ≤ cfg.iregHi then .internalRegisters
  else if cfg.ramLo ≤ a ∧ a ≤ cfg.ramHi then .ram
  else if cfg.romLo ≤ a ∧ a ≤ cfg.romHi then .rom
  else .unassigned

/-- The byte array as the program cannot tell from what the spec allows: canonical, and with no byte hidden under a
peripheral register (R63 and R78 never store one there). -/
def MemoryInv (s : State) : Prop :=
  s.mem.wf = true ∧ ∀ a : Word, regAt s.cfg a ≠ none → s.mem.read a.toNat = Memory.unlisted

/-- The peripheral flags and the hidden bits agree: ICF is never set (R31), a latch is armed only while its flag is set
(R51, R52, R433, R434), and TDRE is clear exactly while a transmitted byte is pending (R442, R443). -/
def PeripheralInv (s : State) : Prop :=
  s.tcsr[7] = false ∧ (s.ocArmed = true → s.ocf = true) ∧ (s.tofArmed = true → s.tof = true) ∧ s.tdre = !s.txPending

/-- The invariant of the machine. -/
def MachineInv (s : State) : Prop := MemoryInv s ∧ PeripheralInv s

/-- WAI with I set: nothing but reset ends it (R126, R131, U10). -/
def StuckInWai (s : State) : Prop := s.halted = false ∧ s.wait = .wai ∧ s.ccr.i = true

/-- A state that may not be counted as the end of a run (R131): halted, or waiting for what cannot come. -/
def NotAnEnd (s : State) : Prop :=
  s.halted = true ∨ (s.wait = .wai ∧ s.ccr.i = true) ∨
    (s.wait = .sleep ∧ s.eoci = false ∧ s.rie = false ∧ s.tie = false)

/-- A step of this state takes the ordinary path and fetches an instruction (R122): it runs, no interrupt is recognized,
and strict mode accepts PC. -/
def Fetches (s : State) : Prop :=
  s.halted = false ∧ s.wait = .run ∧ s.recognized = none ∧ (s.cfg.strict = true → pcOk s.cfg s.pc = true)

/-- No peripheral register answers at the address: a plain byte of memory (R61). -/
def Plain (s : State) (a : Word) : Prop := regAt s.cfg a = none

/-- The six registers of R20 are the same. -/
def SameRegisters (s t : State) : Prop :=
  t.a = s.a ∧ t.b = s.b ∧ t.x = s.x ∧ t.sp = s.sp ∧ t.pc = s.pc ∧ t.ccr = s.ccr

/-- The timer and the serial interface, with their hidden bits, are the same. -/
def SamePeripherals (s t : State) : Prop :=
  t.tcsr = s.tcsr ∧ t.frc = s.frc ∧ t.ocr = s.ocr ∧ t.trcsr = s.trcsr ∧ t.rdr = s.rdr ∧ t.tdr = s.tdr ∧
    t.txPending = s.txPending ∧ t.ocArmed = s.ocArmed ∧ t.tofArmed = s.tofArmed

/-- The engine's own state is the same: the wait state, the halt flag, the cycle counter, the parameters and the count of
free values. -/
def SameEngine (s t : State) : Prop :=
  t.wait = s.wait ∧ t.halted = s.halted ∧ t.cycles = s.cycles ∧ t.cfg = s.cfg ∧ t.free = s.free

/-- Every byte of the array is the same. -/
def SameMemory (s t : State) : Prop := ∀ a : Nat, t.mem.read a = s.mem.read a

/-- The value of an 8-bit source: what one program read returns (R95). -/
def srcValue8 (src : Src8) (s : State) : Byte :=
  match src with
  | .imm v => v
  | .mem m => s.peek (s.ea m)

/-- The state after an 8-bit source is read: as it was, but for the side effect of that read. -/
def afterSrc8 (src : Src8) (s : State) : State :=
  match src with
  | .imm _ => s
  | .mem m => s.touch (s.ea m)

/-- The value of a 16-bit source: the byte at EA, then the byte at EA + 1 as the first read left it (R64, R95). -/
def srcValue16 (src : Src16) (s : State) : Word :=
  match src with
  | .imm v => v
  | .mem m => cat (s.peek (s.ea m)) ((s.touch (s.ea m)).peek (s.ea m + 1))

/-- The state after a 16-bit source is read. -/
def afterSrc16 (src : Src16) (s : State) : State :=
  match src with
  | .imm _ => s
  | .mem m => (s.touch (s.ea m)).touch (s.ea m + 1)

/-- The addresses an instruction stores to, in the order of its stores, in the state it runs in (R73). -/
def storeAddrs (i : Instr) (s : State) : List Word :=
  match i with
  | .staa m | .stab m => [s.ea m]
  | .std m | .stx m | .sts m => [s.ea m, s.ea m + 1]
  | .neg m | .inc m | .dec m | .com m | .clr m | .asl m | .asr m | .lsr m | .rol m | .ror m => [s.ea (modeOfXE m)]
  | .aim _ m | .oim _ m | .eim _ m => [s.ea (modeOfDX m)]
  | .psha | .pshb => [s.sp]
  | .pshx | .jsr _ | .bsr _ => [s.sp, s.sp - 1]
  | .swi | .wai => [s.sp, s.sp - 1, s.sp - 2, s.sp - 3, s.sp - 4, s.sp - 5, s.sp - 6]
  | .ldaa _ | .ldab _ | .ldd _ | .ldx _ | .lds _ | .tab | .tba | .tap | .tpa | .tsx | .txs | .xgdx | .pula | .pulb
  | .pulx | .aba | .adda _ | .addb _ | .adca _ | .adcb _ | .addd _ | .abx | .suba _ | .subb _ | .sbca _ | .sbcb _
  | .subd _ | .sba | .mul | .daa | .nega | .negb | .inca | .incb | .deca | .decb | .inx | .dex | .ins | .des
  | .cmpa _ | .cmpb _ | .cba | .cpx _ | .tsta | .tstb | .tst _ | .anda _ | .andb _ | .oraa _ | .orab _ | .eora _
  | .eorb _ | .bita _ | .bitb _ | .coma | .comb | .clra | .clrb | .asla | .aslb | .asra | .asrb | .lsra | .lsrb
  | .rola | .rolb | .rora | .rorb | .asld | .lsrd | .tim _ _ | .bra _ | .brn _ | .bhi _ | .bls _ | .bcc _ | .bcs _
  | .bne _ | .beq _ | .bvc _ | .bvs _ | .bpl _ | .bmi _ | .bge _ | .blt _ | .bgt _ | .ble _ | .jmp _ | .rts | .nop
  | .clc | .sec | .clv | .sev | .cli | .sei | .rti | .slp | .illegal _ => []

/-- None of the addresses is one that a register of the list answers at. -/
def MissesRegisters (cfg : Config) (l : List Word) (rs : List PeriphReg) : Prop :=
  ∀ p ∈ l, ∀ r ∈ rs, regAt cfg p ≠ some r

/-- What stores to the addresses `l`, and reads of any address, leave of the peripherals (R62, R63, R72): RDR; the counter,
the compare register with its flag, the transmit register with its flags and the enable bits of the two status registers,
each unless an address of `l` is its own. -/
def SamePeripheralsOutside (l : List Word) (s t : State) : Prop :=
  t.rdr = s.rdr ∧
    (MissesRegisters s.cfg l [.frcHi, .frcLo] → t.frc = s.frc) ∧
    (MissesRegisters s.cfg l [.ocrHi, .ocrLo] → t.ocr = s.ocr ∧ t.ocf = s.ocf) ∧
    (MissesRegisters s.cfg l [.tdr] → t.tdr = s.tdr ∧ t.txPending = s.txPending ∧ t.tdre = s.tdre) ∧
    (MissesRegisters s.cfg l [.tcsr] → t.tcsr &&& 0x1F = s.tcsr &&& 0x1F) ∧
    (MissesRegisters s.cfg l [.trcsr] → t.trcsr &&& 0x1F = s.trcsr &&& 0x1F)

/-- What `StackAll` writes, address and byte, in the order of its pushes (R420). -/
def stackImage (s : State) : List (Word × Byte) :=
  [(s.sp, lo s.pc), (s.sp - 1, hi s.pc), (s.sp - 2, lo s.x), (s.sp - 3, hi s.x), (s.sp - 4, s.a), (s.sp - 5, s.b),
   (s.sp - 6, s.ccr.toByte)]

/-- Program writes, one after the other. -/
def writeAll (w : List (Word × Byte)) (s : State) : State := w.foldl (fun t p => memWrite p.1 p.2 t) s

/-- Program reads, one after the other: the bytes they return, and the state after them. -/
def readAll : List Word → State → List Byte × State
  | [], s => ([], s)
  | a :: rest, s =>
    let r := readAll rest (s.touch a)
    (s.peek a :: r.1, r.2)

/-- Instructions one after the other, with nothing between them: no fetch, no interrupt, no cycle accounting. -/
def execAll : List Instr → State → Result
  | [], s => .next s
  | i :: rest, s =>
    match exec i s with
    | .next t => execAll rest t
    | .fault r => .fault r
    | .refused r => .refused r

/-- Steps one after the other, with no host event between them. -/
def stepAll : Nat → State → Result
  | 0, s => .next s
  | n + 1, s =>
    match step s with
    | .next t => stepAll n t
    | .fault r => .fault r
    | .refused r => .refused r

end Sys2Proof.Machine
end

