-- ==== Sys2Proof/Certificates/Slice0/Obligations.lean ====
section
/-! DEFINITION. The statements for the provers, each a `Prop`. The vocabulary they share comes first: it restates results
and flags in integers, not through the model's own computations, and says of a whole state what an instruction changes. -/
namespace Sys2Proof.Claims

open Sys2Proof.Machine

/-- Flags after a byte is moved: N and Z from the byte, V clear, the rest as before. -/
def moved8 (f : Ccr) (v : Byte) : Ccr := { f with n := decide (v.toInt < 0), z := decide (v.toNat = 0), v := false }

/-- Flags after a word is moved. -/
def moved16 (f : Ccr) (v : Word) : Ccr := { f with n := decide (v.toInt < 0), z := decide (v.toNat = 0), v := false }

/-- Flags after `a + m + k` on 8 bits: V is set exactly when the true signed sum does not fit (R191). -/
def addFlags8 (a m : Byte) (k : Nat) (f : Ccr) : Ccr where
  h := decide (16 ≤ a.toNat % 16 + m.toNat % 16 + k)
  i := f.i
  n := decide (128 ≤ (a.toNat + m.toNat + k) % 256)
  z := decide ((a.toNat + m.toNat + k) % 256 = 0)
  v := decide (a.toInt + m.toInt + k < -128 ∨ 127 < a.toInt + m.toInt + k)
  c := decide (256 ≤ a.toNat + m.toNat + k)

/-- Flags after `a - m - k` on 8 bits: C is the borrow, V the signed overflow, H stays (R192). -/
def subFlags8 (a m : Byte) (k : Nat) (f : Ccr) : Ccr where
  h := f.h
  i := f.i
  n := decide (128 ≤ ((a.toNat : Int) - m.toNat - k) % 256)
  z := decide (((a.toNat : Int) - m.toNat - k) % 256 = 0)
  v := decide (a.toInt - m.toInt - k < -128 ∨ 127 < a.toInt - m.toInt - k)
  c := decide (a.toNat < m.toNat + k)

/-- Flags after `a + m` on 16 bits (R193). -/
def addFlags16 (a m : Word) (f : Ccr) : Ccr where
  h := f.h
  i := f.i
  n := decide (32768 ≤ (a.toNat + m.toNat) % 65536)
  z := decide ((a.toNat + m.toNat) % 65536 = 0)
  v := decide (a.toInt + m.toInt < -32768 ∨ 32767 < a.toInt + m.toInt)
  c := decide (65536 ≤ a.toNat + m.toNat)

/-- Flags after `a - m` on 16 bits (R193). -/
def subFlags16 (a m : Word) (f : Ccr) : Ccr where
  h := f.h
  i := f.i
  n := decide (32768 ≤ ((a.toNat : Int) - m.toNat) % 65536)
  z := decide (a = m)
  v := decide (a.toInt - m.toInt < -32768 ∨ 32767 < a.toInt - m.toInt)
  c := decide (a.toNat < m.toNat)

/-- Outside the register file nothing changed from `s` to `t`, but that the peripherals are those of `u`: `s` after the
side effects of the operand reads. -/
def ReadsOnly (s u t : State) : Prop := SameMemory s t ∧ SameEngine s t ∧ SamePeripherals u t

/-- The stores `w`, to different addresses, took place from `u` (`s` after the operand reads) to `t`: a plain byte reads
as stored, every other byte of the array as before, and the peripherals are as the program writes leave them. A store
reads back in an array that has its canonical form, which `InvariantKeptByEveryEvent` says of all of them. -/
def StoresBytes (s u t : State) (w : List (Word × Byte)) : Prop :=
  (s.mem.wf = true → ∀ p ∈ w, Plain s p.1 → t.mem.read p.1.toNat = p.2) ∧
    (∀ k : Nat, (∀ p ∈ w, Plain s p.1 → k ≠ p.1.toNat) → t.mem.read k = s.mem.read k) ∧
    SamePeripherals (writeAll w u) t

/-- `i` loads accumulator `r`. -/
def LoadsAcc (i : Src8 → Instr) (r : Acc) : Prop :=
  ∀ src s, ∃ t, exec (i src) s = .next t ∧
    t.acc r = srcValue8 src s ∧ t.ccr = moved8 s.ccr (srcValue8 src s) ∧
    SameRegisters (({ s with ccr := t.ccr } : State).setAcc r (t.acc r)) t ∧ ReadsOnly s (afterSrc8 src s) t

/-- `i` loads the 16-bit register that `put` writes. -/
def LoadsWord (i : Src16 → Instr) (put : State → Word → State) : Prop :=
  ∀ src s, ∃ t, exec (i src) s = .next t ∧
    SameRegisters (put { s with ccr := moved16 s.ccr (srcValue16 src s) } (srcValue16 src s)) t ∧
    ReadsOnly s (afterSrc16 src s) t

/-- `i` stores the byte that `get` reads. -/
def StoresAcc (i : Mode → Instr) (get : State → Byte) : Prop :=
  ∀ m s, ∃ t, exec (i m) s = .next t ∧
    SameRegisters { s with ccr := moved8 s.ccr (get s) } t ∧ SameEngine s t ∧ StoresBytes s s t [(s.ea m, get s)]

/-- `i` stores the word that `get` reads, the high byte at EA and first. -/
def StoresWord (i : Mode → Instr) (get : State → Word) : Prop :=
  ∀ m s, ∃ t, exec (i m) s = .next t ∧
    SameRegisters { s with ccr := moved16 s.ccr (get s) } t ∧ SameEngine s t ∧
    StoresBytes s s t [(s.ea m, hi (get s)), (s.ea m + 1, lo (get s))]

/-- `i` pushes the bytes that `get` reads, the first at SP. -/
def Pushes (i : Instr) (get : State → List Byte) : Prop :=
  ∀ s, ∃ t, exec i s = .next t ∧
    SameRegisters { s with sp := s.sp - BitVec.ofNat 16 (get s).length } t ∧ SameEngine s t ∧
    StoresBytes s s t ((get s).zipIdx.map fun p => (s.sp - BitVec.ofNat 16 p.2, p.1))

/-- `i` pulls one byte into accumulator `r`; no flag is written. -/
def PullsAcc (i : Instr) (r : Acc) : Prop :=
  ∀ s, ∃ t, exec i s = .next t ∧
    SameRegisters (({ s with sp := s.sp + 1 } : State).setAcc r (s.peek (s.sp + 1))) t ∧
    ReadsOnly s (s.touch (s.sp + 1)) t

/-- `i` puts into accumulator `r` the result `res` of it and the source, with the flags `fl`; `k` is the carry in. -/
def Combines (i : Src8 → Instr) (r : Acc) (res : Byte → Byte → Nat → Int) (fl : Byte → Byte → Nat → Ccr → Ccr)
    (k : Ccr → Nat) : Prop :=
  ∀ src s, ∃ t, exec (i src) s = .next t ∧
    ((t.acc r).toNat : Int) = res (s.acc r) (srcValue8 src s) (k s.ccr) % 256 ∧
    t.ccr = fl (s.acc r) (srcValue8 src s) (k s.ccr) s.ccr ∧
    SameRegisters (({ s with ccr := t.ccr } : State).setAcc r (t.acc r)) t ∧ ReadsOnly s (afterSrc8 src s) t

/-- The exact sum. -/
def sumOf (a m : Byte) (k : Nat) : Int := a.toNat + m.toNat + k

/-- The exact difference. -/
def differenceOf (a m : Byte) (k : Nat) : Int := a.toNat - m.toNat - k

/-- No carry in. -/
def noCarry (_ : Ccr) : Nat := 0

/-- The carry flag as the carry or borrow in. -/
def carryIn (f : Ccr) : Nat := f.c.toNat

/-- `i` sets the flags `fl` of accumulator `r` and the source, and writes nothing else. -/
def Compares (i : Src8 → Instr) (r : Acc) (fl : Byte → Byte → Ccr → Ccr) : Prop :=
  ∀ src s, ∃ t, exec (i src) s = .next t ∧
    SameRegisters { s with ccr := fl (s.acc r) (srcValue8 src s) s.ccr } t ∧ ReadsOnly s (afterSrc8 src s) t

/-- `i` puts into accumulator `r` the bitwise `op` of it and the source: N and Z of the result, V clear. -/
def Bitwise (i : Src8 → Instr) (r : Acc) (op : Byte → Byte → Byte) : Prop :=
  ∀ src s, ∃ t, exec (i src) s = .next t ∧
    SameRegisters (({ s with ccr := moved8 s.ccr (op (s.acc r) (srcValue8 src s)) } : State).setAcc r
      (op (s.acc r) (srcValue8 src s))) t ∧
    ReadsOnly s (afterSrc8 src s) t

/-- `i` replaces accumulator `r` by `res` of it, with the flags `fl`, and changes nothing else. -/
def UnaryAcc (i : Instr) (r : Acc) (res : Byte → Ccr → Byte) (fl : Byte → Ccr → Ccr) : Prop :=
  ∀ s, exec i s = .next (({ s with ccr := fl (s.acc r) s.ccr } : State).setAcc r (res (s.acc r) s.ccr))

/-- `i` replaces the byte at its effective address by `res` of it: one read, then one write (R73). -/
def UnaryMem {M : Type} (i : M → Instr) (mode : M → Mode) (res : M → Byte → Ccr → Byte) (fl : M → Byte → Ccr → Ccr) :
    Prop :=
  ∀ m s, ∃ t, exec (i m) s = .next t ∧
    SameRegisters { s with ccr := fl m (s.peek (s.ea (mode m))) s.ccr } t ∧ SameEngine s t ∧
    StoresBytes s (s.touch (s.ea (mode m))) t [(s.ea (mode m), res m (s.peek (s.ea (mode m))) s.ccr)]

/-- The three forms of a one-operand instruction. -/
def UnaryAll (ia ib : Instr) (im : ModeXE → Instr) (res : Byte → Ccr → Byte) (fl : Byte → Ccr → Ccr) : Prop :=
  UnaryAcc ia .A res fl ∧ UnaryAcc ib .B res fl ∧ UnaryMem im modeOfXE (fun _ => res) (fun _ => fl)

/-- Flags of a shift with result `r` that shifts `c` out: V is N xor C. -/
def shifted8 (r : Byte) (c : Bool) (f : Ccr) : Ccr :=
  { f with n := decide (r.toInt < 0), z := decide (r.toNat = 0), v := decide (r.toInt < 0) ^^ c, c := c }

/-- Flags of a 16-bit shift. -/
def shifted16 (r : Word) (c : Bool) (f : Ccr) : Ccr :=
  { f with n := decide (r.toInt < 0), z := decide (r.toNat = 0), v := decide (r.toInt < 0) ^^ c, c := c }

/-- The nine bits `C:v` that ROL and ROR rotate (R273, R274). -/
def withCarry (c : Bool) (v : Byte) : BitVec 9 := BitVec.ofBool c ++ v

/-- `i` branches to the signed offset from the following instruction exactly when `cond` holds, and changes nothing
else. -/
def BranchesOn (i : Byte → Instr) (cond : Ccr → Bool) : Prop :=
  ∀ rel s, exec (i rel) s =
    .next (if cond s.ccr then { s with pc := BitVec.ofInt 16 (s.pc.toNat + rel.toInt) } else s)

/-- A call to `target`: the return address is pushed, its low byte at SP. -/
def Calls (i : Instr) (target : State → Word) : Prop :=
  ∀ s, ∃ t, exec i s = .next t ∧
    SameRegisters { s with pc := target s, sp := s.sp - 2 } t ∧ SameEngine s t ∧
    StoresBytes s s t [(s.sp, lo s.pc), (s.sp - 1, hi s.pc)]

/-- A taken branch to the offset `rel`. -/
def jumped (s : State) (rel : Byte) : State := { s with pc := BitVec.ofInt 16 (s.pc.toNat + rel.toInt) }

/-- A word read through the vector `v`. -/
def vectorValue (v : Word) (u : State) : Word := cat (u.peek v) ((u.touch v).peek (v + 1))

/-- The registers are stacked, I is set and PC comes from the vector, read after the stacking (R421, R348). -/
def Enters (v : Word) (s t : State) : Prop :=
  SameRegisters { s with sp := s.sp - 7, ccr := { s.ccr with i := true },
                         pc := vectorValue v (writeAll (stackImage s) s) } t ∧
    (s.mem.wf = true → ∀ p ∈ stackImage s, Plain s p.1 → t.mem.read p.1.toNat = p.2) ∧
    (∀ k : Nat, (∀ p ∈ stackImage s, Plain s p.1 → k ≠ p.1.toNat) → t.mem.read k = s.mem.read k) ∧
    SamePeripherals (((writeAll (stackImage s) s).touch v).touch (v + 1)) t

/-- The seven bytes an entry has stacked at and below `sp` are plain bytes of memory. -/
def StackPlain (s : State) : Prop := ∀ p ∈ stackImage s, Plain s p.1

/-- A valid two-digit BCD byte. -/
def IsBcd (v : Byte) : Prop := v.toNat % 16 ≤ 9 ∧ v.toNat / 16 ≤ 9

/-- The number a BCD byte stands for. -/
def bcd (v : Byte) : Nat := 10 * (v.toNat / 16) + v.toNat % 16

end Sys2Proof.Claims

open Sys2Proof Sys2Proof.Machine Sys2Proof.Claims

/-! ### Encoding -/

/-- R94, R100: decoding what `encode` writes gives the instruction back, whatever bytes follow. -/
def Obligations.DecodeOfEncode : Prop :=
  ∀ (i : Instr) (rest : List Byte), i.wf = true → decode (encode i ++ rest) = .ok (i, rest)

/-- R91, R113: each sequence of instruction bytes has one meaning, and encoding that gives the bytes back. -/
def Obligations.EncodeOfDecode : Prop :=
  ∀ (bs rest : List Byte) (i : Instr), decode bs = .ok (i, rest) → bs = encode i ++ rest ∧ i.wf = true

/-- R91, R96: the opcode byte alone fixes format and length; the operand bytes only fill in the operands. -/
def Obligations.OpcodeAloneFixesTheFormat : Prop :=
  ∀ op b1 b2 c1 c2 : Byte,
    (decodeOp op b1 b2).format = (decodeOp op c1 c2).format ∧
      (encode (decodeOp op b1 b2)).length = operandCount op + 1 ∧ (encode (decodeOp op b1 b2)).head? = some op

/-- R100, R112: an opcode decodes to `illegal` exactly when R112 lists it; 26 opcodes do and 230 do not. -/
def Obligations.UndefinedOpcodesAreThoseListed : Prop :=
  (∀ op b1 b2 : Byte, (∃ k, decodeOp op b1 b2 = .illegal k) ↔ op ∈ illegalOpcodes) ∧
    (∀ op b1 b2 k : Byte, decodeOp op b1 b2 = .illegal k → k = op) ∧ illegalOpcodes.Nodup ∧ illegalOpcodes.length = 26

/-- Bytes written out from the Encoding paragraphs decode to the instructions they stand for, one of each format. -/
def Obligations.SpecBytesDecode : Prop :=
  decode [0x1B] = .ok (.aba, []) ∧ decode [0x86, 0x80] = .ok (.ldaa (.imm 0x80), []) ∧
    decode [0x83, 0x12, 0x34] = .ok (.subd (.imm 0x1234), []) ∧ decode [0x9D, 0x90] = .ok (.jsr (.dir 0x90), []) ∧
    decode [0xBD, 0xF1, 0x00] = .ok (.jsr (.ext 0xF100), []) ∧ decode [0xEF, 0x10] = .ok (.stx (.idx 0x10), []) ∧
    decode [0x8D, 0xFE] = .ok (.bsr 0xFE, []) ∧ decode [0x71, 0x0F, 0x90] = .ok (.aim 0x0F (.dir 0x90), []) ∧
    decode [0x6B, 0xF0, 0x01] = .ok (.tim 0xF0 (.idx 0x01), []) ∧ decode [0x3F] = .ok (.swi, [])

/-! ### The step -/

/-- R122: a step that fetches fetches the bytes of one instruction through PC, runs what they decode to, and then charges
the opcode's cost, a fault charging nothing. That all bytes are fetched first and `exec` runs after them is the model's
inference from R92 and R122, which fetch the operand bytes inside the instruction (log 11). -/
def Obligations.StepRunsTheDecodedInstruction : Prop :=
  ∀ (s : State) (n : Nat) (op : Byte) (ops : List Byte) (i : Instr), Fetches s →
    (fetchBytes n s).1 = op :: ops → decode (op :: ops) = .ok (i, []) →
    step s = charge (opCost s.cfg op) (exec i (fetchBytes n s).2)

/-- R92, R24: fetching from plain bytes reads them in address order, moves PC past them modulo 65536, and does nothing
else. -/
def Obligations.FetchFromPlainBytes : Prop :=
  ∀ (n : Nat) (s : State), (∀ k < n, Plain s (s.pc + BitVec.ofNat 16 k)) →
    fetchBytes n s =
      ((List.range n).map fun k => s.mem.read (s.pc + BitVec.ofNat 16 k).toNat,
        { s with pc := s.pc + BitVec.ofNat 16 n })

/-- R121, R483: a halted machine's step changes nothing, and whatever steps and host events come, only a reset ends the
halted state. -/
def Obligations.HaltedUntilReset : Prop :=
  (∀ s : State, s.halted = true → step s = .next s) ∧
    (∀ (es : List Event) (s : State), s.halted = true → Event.reset ∉ es → (deliverAll es s).halted = true) ∧
    ∀ s : State, (resetEvent s).halted = false

/-- R124, R400: strict mode faults at an invalid PC before the fetch: `halted` is set and nothing else changes. That
fault comes only in strict mode, with an invalid PC and no interrupt to take, and leaves registers, memory, peripherals
and cycles alone. That a fault carries the state it leaves is the model's form (log 6). -/
def Obligations.StrictModeFaultsAtInvalidPc : Prop :=
  (∀ s : State, s.halted = false → s.wait = .run → s.recognized = none → s.cfg.strict = true →
      pcOk s.cfg s.pc = false → step s = .fault (.invalidPC s.pc { s with halted := true })) ∧
    ∀ (s u : State) (p : Word), step s = .fault (.invalidPC p u) →
      s.cfg.strict = true ∧ pcOk s.cfg s.pc = false ∧ p = s.pc ∧ (s.ccr.i = true ∨ s.pending = none) ∧
        u.halted = true ∧ u.cycles = s.cycles ∧ SameRegisters s u ∧ SamePeripherals s u ∧ SameMemory s u

/-- R112: an undefined opcode faults, with the opcode and its address; `halted` is set, PC stays one past the opcode.
That a fault carries the state it leaves is the model's form (log 6). -/
def Obligations.IllegalOpcodeFaults : Prop :=
  (∀ (op : Byte) (s : State), exec (.illegal op) s = .fault (.illegalOpcode op (s.pc - 1) { s with halted := true })) ∧
    ∀ (s : State), Fetches s → s.peek s.pc ∈ illegalOpcodes →
      step s = .fault (.illegalOpcode (s.peek s.pc) s.pc { s.touch s.pc with pc := s.pc + 1, halted := true })

/-- R402: no instruction but the undefined opcodes faults, and none is refused. -/
def Obligations.EveryDefinedInstructionCompletes : Prop :=
  ∀ (i : Instr) (s : State), (∀ op, i ≠ .illegal op) → ∃ t, exec i s = .next t

/-- R410: the source a test finds: the timer's before the serial interface's, each by flag and enable bit; a step
recognizes it only while I is clear. -/
def Obligations.PendingByFixedPriority : Prop :=
  ∀ s : State,
    (s.pending =
      if s.tcsr.getLsbD 6 = true ∧ s.tcsr.getLsbD 3 = true then some s.cfg.vecOcf
      else if (s.trcsr.getLsbD 7 = true ∧ s.trcsr.getLsbD 4 = true) ∨
        (s.trcsr.getLsbD 5 = true ∧ s.trcsr.getLsbD 2 = true) then some s.cfg.vecSci
      else none) ∧
    s.recognized = if s.ccr.i = true then none else s.pending

/-- R414, R421, R93: with I clear and a source pending the step is the entry for it, charged the cost of IRQ_OPCODE;
with I set none is serviced, and the step fetches, after strict mode's check of PC (R124), whose fault carries the state it
leaves in the model's form (log 6). -/
def Obligations.InterruptIsTakenExactlyWhenUnmasked : Prop :=
  (∀ (s : State) (v : Word), s.halted = false → s.wait = .run → s.ccr.i = false → s.pending = some v →
      ∃ t, step s = .next (t.advance (opCost s.cfg s.cfg.irqOpcode)) ∧ Enters v s t ∧ SameEngine s t) ∧
    ∀ s : State, s.halted = false → s.wait = .run → s.ccr.i = true →
      step s = if s.cfg.strict = true ∧ pcOk s.cfg s.pc = false then .fault (.invalidPC s.pc { s with halted := true })
        else fetchExecute s

/-- R130: an interrupt entry whose stack and vector are plain bytes clears no timer or serial flag. -/
def Obligations.EntryClearsNoFlag : Prop :=
  ∀ (v : Word) (s : State), StackPlain s → Plain s v → Plain s (v + 1) → SamePeripherals s (takeException v s)

/-- R349, R424: RTI after an entry gives back the whole register file, if the stacked bytes and SP are as the entry left
them, whatever else the handler did. -/
def Obligations.RtiRestoresTheRegisterFile : Prop :=
  ∀ (v : Word) (s u : State), s.mem.wf = true → StackPlain s → u.cfg = s.cfg → u.sp = (takeException v s).sp →
    (∀ p ∈ stackImage s, u.mem.read p.1.toNat = (takeException v s).mem.read p.1.toNat) →
    ∃ t, exec .rti u = .next t ∧ SameRegisters s t ∧ SameMemory u t ∧ SameEngine u t ∧ SamePeripherals u t

/-- R126, R127: a machine in WAI wakes through the vector of an unmasked pending source without stacking again, and else
idles; a sleeping one idles exactly while no source is pending, whatever I is, and else goes on in the same step as one
that runs. That this holds too where that step faults, so that the fault leaves `wait` at Run, is the model's choice
(log 7). -/
def Obligations.WaitStatesWake : Prop :=
  (∀ (s : State) (v : Word), s.halted = false → s.wait = .wai → s.ccr.i = false → s.pending = some v →
    ∃ t, step s = .next (t.advance (opCost s.cfg s.cfg.irqOpcode)) ∧
      SameRegisters { s with pc := vectorValue v s, ccr := { s.ccr with i := true } } t ∧ SameMemory s t ∧
      SameEngine { s with wait := .run } t ∧ SamePeripherals ((s.touch v).touch (v + 1)) t) ∧
    (∀ s : State, s.halted = false → s.wait = .wai → (s.ccr.i = true ∨ s.pending = none) →
      step s = .next (s.advance s.cfg.idleCost)) ∧
    ∀ s : State, s.halted = false → s.wait = .sleep →
      (s.pending = none → step s = .next (s.advance s.cfg.idleCost)) ∧
        (s.pending ≠ none → step s = step { s with wait := .run })

/-- R126, U10: WAI with I set never wakes: any number of steps are idle ticks that only advance the counters. -/
def Obligations.WaiWithMaskSetIdlesForEver : Prop :=
  ∀ (n : Nat) (s : State), StuckInWai s →
    ∃ t, stepAll n s = .next t ∧ StuckInWai t ∧ SameRegisters s t ∧ t.mem = s.mem ∧
      t.cycles = s.cycles + n * s.cfg.idleCost ∧ t.frc = s.frc + BitVec.ofNat 16 (n * s.cfg.idleCost)

/-- R129, R128: a step that runs an instruction makes `cycles` grow by the cost its opcode has in CYCLES, and the counter by
the same from what the instruction leaves in it, which is what was there unless it stores to the counter. -/
def Obligations.CyclesAndCounterGrowByTheCost : Prop :=
  ∀ (s t : State) (n : Nat) (op : Byte) (ops : List Byte) (i : Instr), Fetches s →
    (fetchBytes n s).1 = op :: ops → decode (op :: ops) = .ok (i, []) → step s = .next t →
    t.cycles = s.cycles + opCost s.cfg op ∧
      (∃ u, exec i (fetchBytes n s).2 = .next u ∧ t.frc = u.frc + BitVec.ofNat 16 (opCost s.cfg op)) ∧
      (MissesRegisters s.cfg (storeAddrs i (fetchBytes n s).2) [.frcHi, .frcLo] →
        t.frc = s.frc + BitVec.ofNat 16 (opCost s.cfg op))

/-! ### Reset -/

/-- R480: what reset writes, and that it writes nothing else but through the read of its vector. -/
def Obligations.ResetWritesExactlyTheseParts : Prop :=
  ∀ s : State,
    SameRegisters { s with pc := vectorValue s.cfg.vecReset s, ccr := { s.ccr with i := true } } (resetEvent s) ∧
      (resetEvent s).tcsr = 0x00 ∧ (resetEvent s).frc = 0x0000 ∧ (resetEvent s).ocr = 0xFFFF ∧
      (resetEvent s).trcsr = 0x20 ∧ (resetEvent s).rdr = s.rdr ∧ (resetEvent s).tdr = s.tdr ∧
      (resetEvent s).txPending = false ∧ (resetEvent s).ocArmed = false ∧ (resetEvent s).tofArmed = false ∧
      (resetEvent s).mem = s.mem ∧ SameEngine { s with wait := .run, halted := false } (resetEvent s)

/-- R57, R481: the values the spec gives for reset stand in the reset state, and PC is the word at the reset vector. Reset
leaves `cycles`, and R481 starts it at 0: that the reset state is the one of power-up and the first reset is the model's
inference (log 17). -/
def Obligations.ResetStateHoldsTheStatedValues : Prop :=
  State.reset.pc = vectorValue State.reset.cfg.vecReset State.reset ∧ State.reset.ccr.i = true ∧
    State.reset.tcsr = 0x00 ∧ State.reset.frc = 0x0000 ∧ State.reset.ocr = 0xFFFF ∧ State.reset.trcsr = 0x20 ∧
    State.reset.txPending = false ∧ State.reset.ocArmed = false ∧ State.reset.tofArmed = false ∧
    State.reset.wait = .run ∧ State.reset.halted = false ∧ State.reset.cycles = 0

/-! ### Memory and the peripheral registers -/

/-- R61, R62, R63: a program write to a plain byte is what a program read there returns, every other address reads as
before, and nothing but that byte changes. -/
def Obligations.PlainWriteThenRead : Prop :=
  ∀ (s : State) (p a : Word) (v : Byte), s.mem.wf = true → Plain s p →
    (memWrite p v s).peek a = (if a = p then v else s.peek a) ∧
      memWrite p v s = { s with mem := (memWrite p v s).mem } ∧ (memWrite p v s).mem.wf = true

/-- R62, R63: a program read and a program write of any address, the eight registers tested in that order, bit by bit for
the status registers. -/
def Obligations.PeripheralAccesses : Prop :=
  ∀ (s : State) (p : Word) (v : Byte),
    (memRead p s =
      if p = s.cfg.tcsrAddr then
        (s.tcsr, { s with ocArmed := s.ocArmed || s.tcsr.getLsbD 6, tofArmed := s.tofArmed || s.tcsr.getLsbD 5 })
      else if p = s.cfg.frcAddr then
        ((s.frc >>> 8).setWidth 8, { s with tcsr := if s.tofArmed then s.tcsr &&& 0xDF else s.tcsr, tofArmed := false })
      else if p = s.cfg.frcAddr + 1 then (s.frc.setWidth 8, s)
      else if p = s.cfg.ocrAddr then ((s.ocr >>> 8).setWidth 8, s)
      else if p = s.cfg.ocrAddr + 1 then (s.ocr.setWidth 8, s)
      else if p = s.cfg.trcsrAddr then (s.trcsr, s)
      else if p = s.cfg.rdrAddr then (s.rdr, { s with trcsr := s.trcsr &&& 0x3F })
      else if p = s.cfg.tdrAddr then (s.tdr, s)
      else (s.mem.read p.toNat, s)) ∧
    memWrite p v s =
      if p = s.cfg.tcsrAddr then { s with tcsr := (s.tcsr &&& 0xE0) ||| (v &&& 0x1F) }
      else if p = s.cfg.frcAddr then { s with frc := v ++ s.frc.setWidth 8 }
      else if p = s.cfg.frcAddr + 1 then { s with frc := (s.frc >>> 8).setWidth 8 ++ v }
      else if p = s.cfg.ocrAddr then
        { s with ocr := v ++ s.ocr.setWidth 8, ocArmed := false, tcsr := if s.ocArmed then s.tcsr &&& 0xBF else s.tcsr }
      else if p = s.cfg.ocrAddr + 1 then
        { s with ocr := (s.ocr >>> 8).setWidth 8 ++ v, ocArmed := false,
                 tcsr := if s.ocArmed then s.tcsr &&& 0xBF else s.tcsr }
      else if p = s.cfg.trcsrAddr then { s with trcsr := (s.trcsr &&& 0xE0) ||| (v &&& 0x1F) }
      else if p = s.cfg.rdrAddr then s
      else if p = s.cfg.tdrAddr then { s with tdr := v, trcsr := s.trcsr &&& 0xDF, txPending := true }
      else { s with mem := s.mem.write p.toNat v }

/-- R433, R434: a read of TCSR while OCF is 1 and then a write of either compare byte clears OCF, and the byte is stored; a
read of TCSR while TOF is 1 and then a read of the counter's high byte clears TOF. Neither second access clears its flag
without the first, and the read of TCSR clears none. -/
def Obligations.TimerFlagsAreClearedInTwoAccesses : Prop :=
  ∀ (s : State) (p q r : Word) (v : Byte), regAt s.cfg p = some .tcsr →
    (regAt s.cfg q = some .ocrHi ∨ regAt s.cfg q = some .ocrLo) → regAt s.cfg r = some .frcHi →
    (s.ocf = true → (memWrite q v (s.touch p)).ocf = false ∧ (memWrite q v (s.touch p)).ocArmed = false) ∧
      (s.ocArmed = false → (memWrite q v s).tcsr = s.tcsr) ∧ (memWrite q v s).peek q = v ∧
      (s.tof = true → ((s.touch p).touch r).tof = false ∧ ((s.touch p).touch r).tofArmed = false) ∧
      (s.tofArmed = false → s.touch r = s) ∧ (s.touch p).peek r = hi s.frc ∧ (s.touch p).tcsr = s.tcsr

/-- R64, R65: a word written at plain bytes is big-endian in the array and reads back, at every address and across the
wrap at 0xFFFF. -/
def Obligations.WordWriteThenRead : Prop :=
  ∀ (s : State) (p v : Word), s.mem.wf = true → Plain s p → Plain s (p + 1) →
    (memRead16 p (memWrite16 p v s)).1 = v ∧ (memWrite16 p v s).mem.read p.toNat = hi v ∧
      (memWrite16 p v s).mem.read (p + 1).toNat = lo v

/-- R431: an advance sets OCF exactly when the counter passes through the compare value, and TOF exactly when it passes
0xFFFF; it clears no flag and changes no other bit of TCSR. -/
def Obligations.CompareMatchWhenTheCounterPasses : Prop :=
  ∀ (s : State) (n : Nat),
    ((timerAdvance n s).ocf = true ↔ s.ocf = true ∨ ∃ k, 1 ≤ k ∧ k ≤ n ∧ s.ocr = s.frc + BitVec.ofNat 16 k) ∧
      ((timerAdvance n s).tof = true ↔ s.tof = true ∨ 65536 ≤ s.frc.toNat + n) ∧
      (timerAdvance n s).tcsr &&& 0x9F = s.tcsr &&& 0x9F ∧
      timerAdvance n s = { s with frc := s.frc + BitVec.ofNat 16 n, tcsr := (timerAdvance n s).tcsr }

/-- R440 to R444: a push on a full register changes nothing; otherwise the byte and the full flag are stored, nothing
else, a pending source if it is enabled, and the program reads the byte from RDR, which clears the full flag and keeps it.
A pull returns the byte last written to TDR, once; with none pending it returns nothing and changes nothing. An overrun
sets its bit alone. -/
def Obligations.SerialRoundTrips : Prop :=
  (∀ (s : State) (b : Byte),
    (s.rdrf = true → hostPush b s = (false, s)) ∧
      (s.rdrf = false → hostPush b s = (true, { s with rdr := b, trcsr := s.trcsr ||| 0x80 }) ∧
        (s.rie = true → (hostPush b s).2.pending ≠ none))) ∧
    (∀ (s : State) (b : Byte) (p : Word), regAt s.cfg p = some .rdr → s.rdrf = false →
      (hostPush b s).2.peek p = b ∧ (hostPush b s).2.rdrf = true ∧ ((hostPush b s).2.touch p).rdrf = false ∧
        ((hostPush b s).2.touch p).rdr = b) ∧
    (∀ s : State,
      (s.txPending = true → hostPull s = (some s.tdr, { s with txPending := false, trcsr := s.trcsr ||| 0x20 })) ∧
        (s.txPending = false → hostPull s = (none, s)) ∧ hostOverrun s = { s with trcsr := s.trcsr ||| 0x40 }) ∧
    ∀ (s : State) (v w : Byte) (p : Word), regAt s.cfg p = some .tdr →
      (memWrite p v s).tdre = false ∧ (hostPull (memWrite p v s)).1 = some v ∧
        (hostPull (memWrite p v s)).2.tdre = true ∧
        hostPull (hostPull (memWrite p v s)).2 = (none, (hostPull (memWrite p v s)).2) ∧
        (hostPull (memWrite p w (memWrite p v s))).1 = some w

/-- R20, R76, R78: no host event but reset touches the register file, and of it reset writes PC and I alone. `host_poke`
stores its byte in the array and changes nothing else; at the address of a peripheral register, where R78 offers no event,
the model's choice is to refuse it and change nothing (log 13). -/
def Obligations.HostEventsLeaveTheRegisterFile : Prop :=
  (∀ (s : State) (a : Word) (v : Byte),
    (Plain s a → deliver (.poke a v) s = (.done, { s with mem := (deliver (.poke a v) s).2.mem }) ∧
      (∀ k : Nat, k ≠ a.toNat → (deliver (.poke a v) s).2.mem.read k = s.mem.read k) ∧
      (s.mem.wf = true → (deliver (.poke a v) s).2.mem.read a.toNat = v)) ∧
      (¬Plain s a → deliver (.poke a v) s = (.refused (.pokeOfPeripheral a), s))) ∧
  ∀ (e : Event) (s : State), e ≠ .step →
    (e ≠ .reset → SameRegisters s (deliver e s).2) ∧
      (e = .reset → SameRegisters { s with pc := (deliver e s).2.pc, ccr := { s.ccr with i := true } } (deliver e s).2)

/-! ### Invariants and whole-machine rules -/

/-- The invariant holds in the reset state, whose empty memory is the model's choice (log 4). -/
def Obligations.InvariantHoldsAtReset : Prop := MachineInv State.reset

/-- A step from any state with the invariant answers a state with it: the byte array canonical and nothing hidden under a
register, ICF clear, a latch armed only while its flag is set, TDRE clear exactly while a byte is pending. -/
def Obligations.InvariantKeptByEveryStep : Prop := ∀ s t : State, MachineInv s → step s = .next t → MachineInv t

/-- The same of the state a fault leaves (log 6), and of every sequence of steps and host events in any order. -/
def Obligations.InvariantKeptByEveryEvent : Prop :=
  (∀ (s : State) (r : Fault), MachineInv s → step s = .fault r → MachineInv r.after) ∧
    ∀ (es : List Event) (s : State), MachineInv s → MachineInv (deliverAll es s)

/-- R54, R38, R6: a step that ends in no fault keeps `halted`, RDR, which only an accepted `host_push` writes, and the
parameters; one that ends in a fault sets `halted`, from a machine that was not, and keeps the other two. That a fault
carries the state it leaves (log 6) and that the parameters are a field of the state (log 1) is the model's form. -/
def Obligations.StepsKeepHaltedRdrAndParameters : Prop :=
  ∀ s : State, (∀ t, step s = .next t → t.halted = s.halted ∧ t.rdr = s.rdr ∧ t.cfg = s.cfg) ∧
    ∀ r, step s = .fault r → s.halted = false ∧ r.after.halted = true ∧ r.after.rdr = s.rdr ∧ r.after.cfg = s.cfg

/-- D43, R26: of the instructions only SEI, CLI, TAP, RTI and SWI may change I. -/
def Obligations.InterruptMaskWriters : Prop :=
  ∀ (i : Instr) (s t : State), exec i s = .next t →
    t.ccr.i = s.ccr.i ∨ i = .sei ∨ i = .cli ∨ i = .tap ∨ i = .rti ∨ i = .swi

/-- R73, R75, R72: every byte of memory outside the addresses an instruction stores to reads after it as before, and so do
the counter, the compare register with OCF, TDR with its flags, and the enable bits of TCSR and TRCSR, each unless one of
those addresses is its own. RDR is never stored to. -/
def Obligations.StoresGoNowhereElse : Prop :=
  ∀ (i : Instr) (s t : State), exec i s = .next t →
    (∀ k : Nat, (∀ p ∈ storeAddrs i s, k ≠ p.toNat) → t.mem.read k = s.mem.read k) ∧
      (storeAddrs i s = [] → t.mem = s.mem) ∧
      SamePeripheralsOutside (storeAddrs i s) s t

/-! ### Loads, stores, transfers, stack -/

/-- R95: the effective addresses, with the displacement and the direct address unsigned and the sum modulo 65536. -/
def Obligations.EffectiveAddresses : Prop :=
  ∀ (s : State) (b : Byte) (w : Word),
    (s.ea (.dir b)).toNat = b.toNat ∧ (s.ea (.idx b)).toNat = (s.x.toNat + b.toNat) % 65536 ∧ s.ea (.ext w) = w

/-- R140 to R143: LDAA, LDAB, LDD, LDX and LDS. -/
def Obligations.LoadsMoveTheSource : Prop :=
  LoadsAcc .ldaa .A ∧ LoadsAcc .ldab .B ∧ LoadsWord .ldd State.setD ∧
    LoadsWord .ldx (fun s v => { s with x := v }) ∧ LoadsWord .lds (fun s v => { s with sp := v })

/-- R145 to R148: STAA, STAB, STD, STX and STS. -/
def Obligations.StoresMoveTheRegister : Prop :=
  StoresAcc .staa State.a ∧ StoresAcc .stab State.b ∧ StoresWord .std State.d ∧ StoresWord .stx State.x ∧
    StoresWord .sts State.sp

/-- R161 to R167: TAB, TBA, TAP, TPA, TSX, TXS and XGDX, each with the whole next state. -/
def Obligations.TransfersMoveRegisters : Prop :=
  ∀ s : State,
    exec .tab s = .next { s with b := s.a, ccr := moved8 s.ccr s.a } ∧
      exec .tba s = .next { s with a := s.b, ccr := moved8 s.ccr s.b } ∧
      exec .tap s = .next { s with ccr := { h := s.a.getLsbD 5, i := s.a.getLsbD 4, n := s.a.getLsbD 3,
                                            z := s.a.getLsbD 2, v := s.a.getLsbD 1, c := s.a.getLsbD 0 } } ∧
      exec .tpa s = .next { s with a := BitVec.ofNat 8 (192 + 32 * s.ccr.h.toNat + 16 * s.ccr.i.toNat +
        8 * s.ccr.n.toNat + 4 * s.ccr.z.toNat + 2 * s.ccr.v.toNat + s.ccr.c.toNat) } ∧
      exec .tsx s = .next { s with x := s.sp + 1 } ∧ exec .txs s = .next { s with sp := s.x - 1 } ∧
      exec .xgdx s = .next { s with a := (s.x >>> 8).setWidth 8, b := s.x.setWidth 8, x := s.a ++ s.b }

/-- R170 to R173: PSHA, PSHB, PSHX, PULA, PULB and PULX. -/
def Obligations.PushesAndPulls : Prop :=
  Pushes .psha (fun s => [s.a]) ∧ Pushes .pshb (fun s => [s.b]) ∧ Pushes .pshx (fun s => [lo s.x, hi s.x]) ∧
    PullsAcc .pula .A ∧ PullsAcc .pulb .B ∧
    ∀ s : State, ∃ t, exec .pulx s = .next t ∧
      SameRegisters { s with sp := s.sp + 2, x := vectorValue (s.sp + 1) s } t ∧
      ReadsOnly s ((s.touch (s.sp + 1)).touch (s.sp + 2)) t

/-! ### Arithmetic, compare, test -/

/-- R191, R194 to R196: ABA, ADDA, ADDB, ADCA and ADCB, V by the true signed sum. -/
def Obligations.ByteAdditions : Prop :=
  Combines .adda .A sumOf addFlags8 noCarry ∧ Combines .addb .B sumOf addFlags8 noCarry ∧
    Combines .adca .A sumOf addFlags8 carryIn ∧ Combines .adcb .B sumOf addFlags8 carryIn ∧
    ∀ s : State, exec .aba s = .next { s with a := s.a + s.b, ccr := addFlags8 s.a s.b 0 s.ccr }

/-- R192, R197, R198, R203: SUBA, SUBB, SBCA, SBCB and SBA. -/
def Obligations.ByteSubtractions : Prop :=
  Combines .suba .A differenceOf subFlags8 noCarry ∧ Combines .subb .B differenceOf subFlags8 noCarry ∧
    Combines .sbca .A differenceOf subFlags8 carryIn ∧ Combines .sbcb .B differenceOf subFlags8 carryIn ∧
    ∀ s : State, exec .sba s = .next { s with a := s.a - s.b, ccr := subFlags8 s.a s.b 0 s.ccr }

/-- R218 to R220, R253, R221: CMPA, CMPB, CBA, CPX, BITA, BITB, TSTA, TSTB and TST write flags alone. -/
def Obligations.ComparesWriteFlagsAlone : Prop :=
  Compares .cmpa .A (fun a m => subFlags8 a m 0) ∧ Compares .cmpb .B (fun a m => subFlags8 a m 0) ∧
    Compares .bita .A (fun a m f => moved8 f (a &&& m)) ∧ Compares .bitb .B (fun a m f => moved8 f (a &&& m)) ∧
    (∀ s : State, exec .cba s = .next { s with ccr := subFlags8 s.a s.b 0 s.ccr }) ∧
    (∀ s : State, exec .tsta s = .next { s with ccr := { moved8 s.ccr s.a with c := false } }) ∧
    (∀ s : State, exec .tstb s = .next { s with ccr := { moved8 s.ccr s.b with c := false } }) ∧
    (∀ (m : ModeXE) (s : State), ∃ t, exec (.tst m) s = .next t ∧
      SameRegisters { s with ccr := { moved8 s.ccr (s.peek (s.ea (modeOfXE m))) with c := false } } t ∧
      ReadsOnly s (s.touch (s.ea (modeOfXE m))) t) ∧
    ∀ (src : Src16) (s : State), ∃ t, exec (.cpx src) s = .next t ∧
      SameRegisters { s with ccr := subFlags16 s.x (srcValue16 src s) s.ccr } t ∧ ReadsOnly s (afterSrc16 src s) t

/-- R193, R199, R200, R207, R208: ADDD, SUBD, MUL and ABX. -/
def Obligations.WordArithmetic : Prop :=
  (∀ (src : Src16) (s : State), ∃ t, exec (.addd src) s = .next t ∧
      SameRegisters (({ s with ccr := addFlags16 s.d (srcValue16 src s) s.ccr } : State).setD
        (s.d + srcValue16 src s)) t ∧ ReadsOnly s (afterSrc16 src s) t) ∧
    (∀ (src : Src16) (s : State), ∃ t, exec (.subd src) s = .next t ∧
      SameRegisters (({ s with ccr := subFlags16 s.d (srcValue16 src s) s.ccr } : State).setD
        (s.d - srcValue16 src s)) t ∧ ReadsOnly s (afterSrc16 src s) t) ∧
    (∀ s : State, ∃ t, exec .mul s = .next t ∧ 256 * t.a.toNat + t.b.toNat = s.a.toNat * s.b.toNat ∧
      t = { s with a := t.a, b := t.b, ccr := { s.ccr with c := t.b.getLsbD 7 } }) ∧
    ∀ s : State, exec .abx s = .next { s with x := BitVec.ofNat 16 (s.x.toNat + s.b.toNat) }

/-- R209: DAA: the correction, C only ever set, N and Z of the result, V any value (log 5: nothing is said of it). -/
def Obligations.DecimalAdjust : Prop :=
  ∀ s : State, ∃ t, exec .daa s = .next t ∧
    (let low := s.a.toNat % 16; let high := s.a.toNat / 16
     let six := if 9 < low ∨ s.ccr.h = true then 6 else 0
     let sixty := if 9 < high ∨ s.ccr.c = true ∨ (8 < high ∧ 9 < low) then 96 else 0
     t.a.toNat = (s.a.toNat + six + sixty) % 256 ∧ (t.ccr.c = true ↔ s.ccr.c = true ∨ sixty = 96)) ∧
    t.ccr.n = t.a.getLsbD 7 ∧ (t.ccr.z = true ↔ t.a = 0) ∧
    t = { s with a := t.a, free := t.free, ccr := { s.ccr with n := t.ccr.n, z := t.ccr.z, v := t.ccr.v, c := t.ccr.c } }

/-- R209: after ABA on two valid BCD bytes, DAA leaves their decimal sum in A, C the hundred. -/
def Obligations.DecimalAdditionOfBcdBytes : Prop :=
  ∀ s : State, IsBcd s.a → IsBcd s.b → ∃ t, execAll [.aba, .daa] s = .next t ∧ IsBcd t.a ∧
    bcd t.a + 100 * t.ccr.c.toNat = bcd s.a + bcd s.b

/-- R210, R212, R213: NEG, INC and DEC in all three forms. -/
def Obligations.NegateIncrementDecrement : Prop :=
  UnaryAll .nega .negb .neg (fun v _ => BitVec.ofInt 8 (-v.toInt))
      (fun v f => { moved8 f (-v) with v := decide (v = 0x80), c := decide (v ≠ 0) }) ∧
    UnaryAll .inca .incb .inc (fun v _ => BitVec.ofNat 8 (v.toNat + 1))
      (fun v f => { moved8 f (v + 1) with v := decide (127 < v.toInt + 1) }) ∧
    UnaryAll .deca .decb .dec (fun v _ => BitVec.ofInt 8 (v.toInt - 1))
      (fun v f => { moved8 f (v - 1) with v := decide (v.toInt - 1 < -128) })

/-- R214 to R217: INX, DEX, INS and DES; the first two write Z alone, the others no flag. -/
def Obligations.IndexAndStackPointerSteps : Prop :=
  ∀ s : State,
    exec .inx s = .next { s with x := s.x + 1, ccr := { s.ccr with z := decide (s.x.toNat = 65535) } } ∧
      exec .dex s = .next { s with x := s.x - 1, ccr := { s.ccr with z := decide (s.x.toNat = 1) } } ∧
      exec .ins s = .next { s with sp := s.sp + 1 } ∧ exec .des s = .next { s with sp := s.sp - 1 }

/-! ### Logic, shift, bit manipulation -/

/-- R250 to R252: ANDA, ANDB, ORAA, ORAB, EORA and EORB. -/
def Obligations.BitwiseOnAccumulators : Prop :=
  Bitwise .anda .A (· &&& ·) ∧ Bitwise .andb .B (· &&& ·) ∧ Bitwise .oraa .A (· ||| ·) ∧ Bitwise .orab .B (· ||| ·) ∧
    Bitwise .eora .A (· ^^^ ·) ∧ Bitwise .eorb .B (· ^^^ ·)

/-- R258, R259: COM in all three forms sets C; CLR makes no read and its memory form one write. -/
def Obligations.ComplementAndClear : Prop :=
  UnaryAll .coma .comb .com (fun v _ => ~~~v) (fun v f => { moved8 f (~~~v) with c := true }) ∧
    (∀ s : State, exec .clra s = .next { s with a := 0, ccr := { s.ccr with n := false, z := true, v := false, c := false } }) ∧
    (∀ s : State, exec .clrb s = .next { s with b := 0, ccr := { s.ccr with n := false, z := true, v := false, c := false } }) ∧
    ∀ (m : ModeXE) (s : State), ∃ t, exec (.clr m) s = .next t ∧
      SameRegisters { s with ccr := { s.ccr with n := false, z := true, v := false, c := false } } t ∧ SameEngine s t ∧
      StoresBytes s s t [(s.ea (modeOfXE m), 0)]

/-- R270 to R272, R275, R276: ASL, ASR and LSR in all three forms, as a multiplication and two divisions by two, and the
shifts ASLD and LSRD of the pair. -/
def Obligations.ShiftsByOneBit : Prop :=
  UnaryAll .asla .aslb .asl (fun v _ => v <<< 1) (fun v f => shifted8 (v <<< 1) (v.getLsbD 7) f) ∧
    UnaryAll .asra .asrb .asr (fun v _ => BitVec.ofInt 8 (v.toInt / 2))
      (fun v f => shifted8 (BitVec.ofInt 8 (v.toInt / 2)) (v.getLsbD 0) f) ∧
    UnaryAll .lsra .lsrb .lsr (fun v _ => BitVec.ofNat 8 (v.toNat / 2))
      (fun v f => shifted8 (BitVec.ofNat 8 (v.toNat / 2)) (v.getLsbD 0) f) ∧
    ∀ s : State,
      exec .asld s = .next (({ s with ccr := shifted16 (s.d <<< 1) (s.a.getLsbD 7) s.ccr } : State).setD (s.d <<< 1)) ∧
        exec .lsrd s = .next (({ s with ccr := shifted16 (s.d >>> 1) (s.b.getLsbD 0) s.ccr } : State).setD (s.d >>> 1))

/-- R273, R274: ROL and ROR in all three forms rotate the nine bits `C:v`. -/
def Obligations.RotatesThroughCarry : Prop :=
  UnaryAll .rola .rolb .rol (fun v f => ((withCarry f.c v).rotateLeft 1).setWidth 8)
      (fun v f => shifted8 (((withCarry f.c v).rotateLeft 1).setWidth 8) (v.getLsbD 7) f) ∧
    UnaryAll .rora .rorb .ror (fun v f => ((withCarry f.c v).rotateRight 1).setWidth 8)
      (fun v f => shifted8 (((withCarry f.c v).rotateRight 1).setWidth 8) (v.getLsbD 0) f)

/-- R273: nine ROLs restore operand and carry, and so do nine RORs. -/
def Obligations.NineRotatesRestore : Prop :=
  ∀ s : State,
    (∃ t, execAll (List.replicate 9 .rola) s = .next t ∧ t.a = s.a ∧ t.ccr.c = s.ccr.c) ∧
      (∃ t, execAll (List.replicate 9 .rolb) s = .next t ∧ t.b = s.b ∧ t.ccr.c = s.ccr.c) ∧
      (∃ t, execAll (List.replicate 9 .rora) s = .next t ∧ t.a = s.a ∧ t.ccr.c = s.ccr.c) ∧
      ∃ t, execAll (List.replicate 9 .rorb) s = .next t ∧ t.b = s.b ∧ t.ccr.c = s.ccr.c

/-- R280 to R283: AIM, OIM, EIM and TIM. -/
def Obligations.MasksOnMemory : Prop :=
  (∀ mask, UnaryMem (.aim mask) modeOfDX (fun _ v _ => v &&& mask) (fun _ v f => moved8 f (v &&& mask))) ∧
    (∀ mask, UnaryMem (.oim mask) modeOfDX (fun _ v _ => v ||| mask) (fun _ v f => moved8 f (v ||| mask))) ∧
    (∀ mask, UnaryMem (.eim mask) modeOfDX (fun _ v _ => v ^^^ mask) (fun _ v f => moved8 f (v ^^^ mask))) ∧
    ∀ (mask : Byte) (m : ModeDX) (s : State), ∃ t, exec (.tim mask m) s = .next t ∧
      SameRegisters { s with ccr := moved8 s.ccr (s.peek (s.ea (modeOfDX m)) &&& mask) } t ∧
      ReadsOnly s (s.touch (s.ea (modeOfDX m))) t

/-! ### Control transfer -/

/-- R300 to R316: the sixteen branches, taken or not, and nothing else changed. -/
def Obligations.BranchesByCondition : Prop :=
  BranchesOn .bra (fun _ => true) ∧ BranchesOn .brn (fun _ => false) ∧
    BranchesOn .bhi (fun f => decide (f.c = false ∧ f.z = false)) ∧
    BranchesOn .bls (fun f => decide (f.c = true ∨ f.z = true)) ∧
    BranchesOn .bcc (fun f => decide (f.c = false)) ∧ BranchesOn .bcs (fun f => decide (f.c = true)) ∧
    BranchesOn .bne (fun f => decide (f.z = false)) ∧ BranchesOn .beq (fun f => decide (f.z = true)) ∧
    BranchesOn .bvc (fun f => decide (f.v = false)) ∧ BranchesOn .bvs (fun f => decide (f.v = true)) ∧
    BranchesOn .bpl (fun f => decide (f.n = false)) ∧ BranchesOn .bmi (fun f => decide (f.n = true)) ∧
    BranchesOn .bge (fun f => decide (f.n = f.v)) ∧ BranchesOn .blt (fun f => decide (f.n ≠ f.v)) ∧
    BranchesOn .bgt (fun f => decide (f.z = false ∧ f.n = f.v)) ∧
    BranchesOn .ble (fun f => decide (f.z = true ∨ f.n ≠ f.v))

/-- R300, R218: after a compare the branches test the unsigned and the signed order of accumulator and operand. -/
def Obligations.BranchesAfterCompare : Prop :=
  ∀ (src : Src8) (rel : Byte) (s t : State), exec (.cmpa src) s = .next t →
    exec (.bhi rel) t = .next (if (srcValue8 src s).toNat < s.a.toNat then jumped t rel else t) ∧
      exec (.bls rel) t = .next (if s.a.toNat ≤ (srcValue8 src s).toNat then jumped t rel else t) ∧
      exec (.bcc rel) t = .next (if (srcValue8 src s).toNat ≤ s.a.toNat then jumped t rel else t) ∧
      exec (.bcs rel) t = .next (if s.a.toNat < (srcValue8 src s).toNat then jumped t rel else t) ∧
      exec (.bne rel) t = .next (if s.a ≠ srcValue8 src s then jumped t rel else t) ∧
      exec (.beq rel) t = .next (if s.a = srcValue8 src s then jumped t rel else t) ∧
      exec (.bge rel) t = .next (if (srcValue8 src s).toInt ≤ s.a.toInt then jumped t rel else t) ∧
      exec (.blt rel) t = .next (if s.a.toInt < (srcValue8 src s).toInt then jumped t rel else t) ∧
      exec (.bgt rel) t = .next (if (srcValue8 src s).toInt < s.a.toInt then jumped t rel else t) ∧
      exec (.ble rel) t = .next (if s.a.toInt ≤ (srcValue8 src s).toInt then jumped t rel else t)

/-- R320, R322 to R324: JMP, JSR, BSR and RTS. -/
def Obligations.JumpsCallsAndReturns : Prop :=
  (∀ (m : ModeXE) (s : State), exec (.jmp m) s = .next { s with pc := s.ea (modeOfXE m) }) ∧
    (∀ m, Calls (.jsr m) (fun s => s.ea m)) ∧
    (∀ rel, Calls (.bsr rel) (fun s => BitVec.ofInt 16 (s.pc.toNat + rel.toInt))) ∧
    ∀ s : State, ∃ t, exec .rts s = .next t ∧
      SameRegisters { s with sp := s.sp + 2, pc := vectorValue (s.sp + 1) s } t ∧
      ReadsOnly s ((s.touch (s.sp + 1)).touch (s.sp + 2)) t

/-- R324: a call followed by RTS continues after the call with SP restored. -/
def Obligations.ReturnAfterCall : Prop :=
  ∀ (m : Mode) (rel : Byte) (s : State), s.mem.wf = true → Plain s s.sp → Plain s (s.sp - 1) →
    (∃ t, execAll [.jsr m, .rts] s = .next t ∧ SameRegisters s t ∧ SamePeripherals s t) ∧
      ∃ t, execAll [.bsr rel, .rts] s = .next t ∧ SameRegisters s t ∧ SamePeripherals s t

/-! ### System -/

/-- R341 to R347: NOP and the six flag instructions, each with the whole next state. -/
def Obligations.NopAndFlagInstructions : Prop :=
  ∀ s : State,
    exec .nop s = .next s ∧ exec .clc s = .next { s with ccr := { s.ccr with c := false } } ∧
      exec .sec s = .next { s with ccr := { s.ccr with c := true } } ∧
      exec .clv s = .next { s with ccr := { s.ccr with v := false } } ∧
      exec .sev s = .next { s with ccr := { s.ccr with v := true } } ∧
      exec .cli s = .next { s with ccr := { s.ccr with i := false } } ∧
      exec .sei s = .next { s with ccr := { s.ccr with i := true } }

/-- R348, R420: SWI stacks the seven bytes, sets I and goes through its vector, whatever I was. -/
def Obligations.SoftwareInterrupt : Prop :=
  ∀ s : State, ∃ t, exec .swi s = .next t ∧ Enters s.cfg.vecSwi s t ∧ SameEngine s t

/-- R349: RTI pulls seven bytes, in address order, into CCR, B, A, X and PC. -/
def Obligations.ReturnFromInterrupt : Prop :=
  ∀ s : State, ∃ t, exec .rti s = .next t ∧
    (let r := readAll ((List.range 7).map fun k => s.sp + 1 + BitVec.ofNat 16 k) s
     ∀ c b a xh xl ph pl : Byte, r.1 = [c, b, a, xh, xl, ph, pl] →
       SameRegisters { s with sp := s.sp + 7, a := a, b := b, x := xh ++ xl, pc := ph ++ pl, ccr := Ccr.ofByte c } t ∧
         ReadsOnly s r.2 t)

/-- R351, R352: WAI stacks and waits with I as it was, SLP only sleeps. -/
def Obligations.WaitAndSleep : Prop :=
  (∀ s : State, ∃ t, exec .wai s = .next t ∧ SameRegisters { s with sp := s.sp - 7 } t ∧
      SameEngine { s with wait := .wai } t ∧ StoresBytes s s t (stackImage s)) ∧
    ∀ s : State, exec .slp s = .next { s with wait := .sleep }
end

