-- ==== Sys2Proof/Laws/Bits.lean ====
section
/-! SUPPORT. The laws of the byte-order helpers, of the condition-code byte and of the bit masks of the status registers. -/
namespace Sys2Proof.Machine

/-- The word of two bytes as a number (R8). -/
theorem cat_toNat (h l : Byte) : (cat h l).toNat = 256 * h.toNat + l.toNat := by
  rw [cat, BitVec.toNat_append, ← Nat.shiftLeft_add_eq_or_of_lt l.isLt, Nat.shiftLeft_eq, Nat.mul_comm]

theorem hi_toNat (v : Word) : (hi v).toNat = v.toNat / 256 := by
  have := v.isLt
  simp only [hi, BitVec.extractLsb'_toNat, Nat.shiftRight_eq_div_pow]
  omega

theorem lo_toNat (v : Word) : (lo v).toNat = v.toNat % 256 := by
  simp only [lo, BitVec.extractLsb'_toNat, Nat.shiftRight_eq_div_pow]
  omega

@[simp] theorem hi_cat (h l : Byte) : hi (cat h l) = h := by
  apply BitVec.eq_of_toNat_eq
  rw [hi_toNat, cat_toNat]
  omega

@[simp] theorem lo_cat (h l : Byte) : lo (cat h l) = l := by
  apply BitVec.eq_of_toNat_eq
  rw [lo_toNat, cat_toNat]
  omega

/-- A word is its two bytes (R64). -/
@[simp] theorem cat_hi_lo (v : Word) : cat (hi v) (lo v) = v := by
  apply BitVec.eq_of_toNat_eq
  rw [cat_toNat, hi_toNat, lo_toNat]
  omega

/-- The condition codes pushed and pulled again are the same (R26). -/
@[simp] theorem Ccr.ofByte_toByte (f : Ccr) : Ccr.ofByte f.toByte = f := by
  obtain ⟨h, i, n, z, v, c⟩ := f
  revert h i n z v c
  decide

/-- The byte form of the flags reads bits 7 and 6 as 1 (R26). -/
theorem Ccr.toByte_top (f : Ccr) : f.toByte[7] = true ∧ f.toByte[6] = true := by
  obtain ⟨h, i, n, z, v, c⟩ := f
  revert h i n z v c
  decide

/-- A program write of a status register keeps its bits 7 to 5 (R31, R37). -/
theorem statusWrite_flags (old v : Byte) :
    (statusWrite old v)[7] = old[7] ∧ (statusWrite old v)[6] = old[6] ∧ (statusWrite old v)[5] = old[5] := by
  refine ⟨?_, ?_, ?_⟩ <;>
    · change BitVec.getLsbD (_ ++ _) _ = _
      rw [BitVec.getLsbD_append]
      simp

/-- What the masks of the status registers leave of the flag bits. -/
theorem mask_flags : ∀ v : Byte,
    ((v &&& 0xDF#8)[7] = v[7] ∧ (v &&& 0xDF#8)[6] = v[6] ∧ (v &&& 0xDF#8)[5] = false) ∧
      ((v &&& 0xBF#8)[7] = v[7] ∧ (v &&& 0xBF#8)[6] = false ∧ (v &&& 0xBF#8)[5] = v[5]) ∧
      ((v &&& 0x3F#8)[7] = false ∧ (v &&& 0x3F#8)[6] = false ∧ (v &&& 0x3F#8)[5] = v[5]) := by
  decide

/-- What setting a flag bit leaves of the others. -/
theorem set_flags : ∀ v : Byte,
    ((v ||| 0x80#8)[7] = true ∧ (v ||| 0x80#8)[6] = v[6] ∧ (v ||| 0x80#8)[5] = v[5]) ∧
      ((v ||| 0x40#8)[7] = v[7] ∧ (v ||| 0x40#8)[6] = true ∧ (v ||| 0x40#8)[5] = v[5]) ∧
      ((v ||| 0x20#8)[7] = v[7] ∧ (v ||| 0x20#8)[6] = v[6] ∧ (v ||| 0x20#8)[5] = true) := by
  decide

end Sys2Proof.Machine
end

