-- ==== Sys2Proof/Laws/Flags.lean ====
section
/-! SUPPORT. For each flag computation, one lemma for each flag it does not write, tagged for `simp`. -/
namespace Sys2Proof.Machine

@[simp] theorem Ccr.move8_keeps_h (f : Ccr) (v : Byte) : (f.move8 v).h = f.h := rfl
@[simp] theorem Ccr.move8_keeps_i (f : Ccr) (v : Byte) : (f.move8 v).i = f.i := rfl
@[simp] theorem Ccr.move8_keeps_c (f : Ccr) (v : Byte) : (f.move8 v).c = f.c := rfl
@[simp] theorem Ccr.move16_keeps_h (f : Ccr) (v : Word) : (f.move16 v).h = f.h := rfl
@[simp] theorem Ccr.move16_keeps_i (f : Ccr) (v : Word) : (f.move16 v).i = f.i := rfl
@[simp] theorem Ccr.move16_keeps_c (f : Ccr) (v : Word) : (f.move16 v).c = f.c := rfl
@[simp] theorem tst8_keeps_h (f : Ccr) (v : Byte) : (tst8 v f).h = f.h := rfl
@[simp] theorem tst8_keeps_i (f : Ccr) (v : Byte) : (tst8 v f).i = f.i := rfl
@[simp] theorem clrFlags_keeps_h (f : Ccr) : (clrFlags f).h = f.h := rfl
@[simp] theorem clrFlags_keeps_i (f : Ccr) : (clrFlags f).i = f.i := rfl
@[simp] theorem Ccr.setNZ8_keeps_h (f : Ccr) (v : Byte) : (f.setNZ8 v).h = f.h := rfl
@[simp] theorem Ccr.setNZ8_keeps_i (f : Ccr) (v : Byte) : (f.setNZ8 v).i = f.i := rfl
@[simp] theorem Ccr.setNZ8_keeps_v (f : Ccr) (v : Byte) : (f.setNZ8 v).v = f.v := rfl
@[simp] theorem Ccr.setNZ8_keeps_c (f : Ccr) (v : Byte) : (f.setNZ8 v).c = f.c := rfl
@[simp] theorem Ccr.setNZ16_keeps_h (f : Ccr) (v : Word) : (f.setNZ16 v).h = f.h := rfl
@[simp] theorem Ccr.setNZ16_keeps_i (f : Ccr) (v : Word) : (f.setNZ16 v).i = f.i := rfl
@[simp] theorem Ccr.setNZ16_keeps_v (f : Ccr) (v : Word) : (f.setNZ16 v).v = f.v := rfl
@[simp] theorem Ccr.setNZ16_keeps_c (f : Ccr) (v : Word) : (f.setNZ16 v).c = f.c := rfl
@[simp] theorem add8_keeps_i (a m : Byte) (k : Bool) (f : Ccr) : ((add8 a m k f).2).i = f.i := rfl
@[simp] theorem sub8_keeps_h (a m : Byte) (k : Bool) (f : Ccr) : ((sub8 a m k f).2).h = f.h := rfl
@[simp] theorem sub8_keeps_i (a m : Byte) (k : Bool) (f : Ccr) : ((sub8 a m k f).2).i = f.i := rfl
@[simp] theorem add16_keeps_h (a m : Word) (f : Ccr) : ((add16 a m f).2).h = f.h := rfl
@[simp] theorem add16_keeps_i (a m : Word) (f : Ccr) : ((add16 a m f).2).i = f.i := rfl
@[simp] theorem sub16_keeps_h (a m : Word) (f : Ccr) : ((sub16 a m f).2).h = f.h := rfl
@[simp] theorem sub16_keeps_i (a m : Word) (f : Ccr) : ((sub16 a m f).2).i = f.i := rfl
@[simp] theorem mul8_keeps_h (a b : Byte) (f : Ccr) : ((mul8 a b f).2).h = f.h := rfl
@[simp] theorem mul8_keeps_i (a b : Byte) (f : Ccr) : ((mul8 a b f).2).i = f.i := rfl
@[simp] theorem mul8_keeps_n (a b : Byte) (f : Ccr) : ((mul8 a b f).2).n = f.n := rfl
@[simp] theorem mul8_keeps_z (a b : Byte) (f : Ccr) : ((mul8 a b f).2).z = f.z := rfl
@[simp] theorem mul8_keeps_v (a b : Byte) (f : Ccr) : ((mul8 a b f).2).v = f.v := rfl
@[simp] theorem daa8_keeps_h (a : Byte) (k : Bool) (f : Ccr) : ((daa8 a k f).2).h = f.h := rfl
@[simp] theorem daa8_keeps_i (a : Byte) (k : Bool) (f : Ccr) : ((daa8 a k f).2).i = f.i := rfl
@[simp] theorem neg8_keeps_h (v : Byte) (f : Ccr) : ((neg8 v f).2).h = f.h := rfl
@[simp] theorem neg8_keeps_i (v : Byte) (f : Ccr) : ((neg8 v f).2).i = f.i := rfl
@[simp] theorem inc8_keeps_h (v : Byte) (f : Ccr) : ((inc8 v f).2).h = f.h := rfl
@[simp] theorem inc8_keeps_i (v : Byte) (f : Ccr) : ((inc8 v f).2).i = f.i := rfl
@[simp] theorem inc8_keeps_c (v : Byte) (f : Ccr) : ((inc8 v f).2).c = f.c := rfl
@[simp] theorem dec8_keeps_h (v : Byte) (f : Ccr) : ((dec8 v f).2).h = f.h := rfl
@[simp] theorem dec8_keeps_i (v : Byte) (f : Ccr) : ((dec8 v f).2).i = f.i := rfl
@[simp] theorem dec8_keeps_c (v : Byte) (f : Ccr) : ((dec8 v f).2).c = f.c := rfl
@[simp] theorem com8_keeps_h (v : Byte) (f : Ccr) : ((com8 v f).2).h = f.h := rfl
@[simp] theorem com8_keeps_i (v : Byte) (f : Ccr) : ((com8 v f).2).i = f.i := rfl
@[simp] theorem shiftFlags8_keeps_h (r : Byte) (k : Bool) (f : Ccr) : (shiftFlags8 r k f).h = f.h := rfl
@[simp] theorem shiftFlags8_keeps_i (r : Byte) (k : Bool) (f : Ccr) : (shiftFlags8 r k f).i = f.i := rfl
@[simp] theorem shiftFlags16_keeps_h (r : Word) (k : Bool) (f : Ccr) : (shiftFlags16 r k f).h = f.h := rfl
@[simp] theorem shiftFlags16_keeps_i (r : Word) (k : Bool) (f : Ccr) : (shiftFlags16 r k f).i = f.i := rfl
@[simp] theorem asl8_keeps_h (v : Byte) (f : Ccr) : ((asl8 v f).2).h = f.h := rfl
@[simp] theorem asl8_keeps_i (v : Byte) (f : Ccr) : ((asl8 v f).2).i = f.i := rfl
@[simp] theorem asr8_keeps_h (v : Byte) (f : Ccr) : ((asr8 v f).2).h = f.h := rfl
@[simp] theorem asr8_keeps_i (v : Byte) (f : Ccr) : ((asr8 v f).2).i = f.i := rfl
@[simp] theorem lsr8_keeps_h (v : Byte) (f : Ccr) : ((lsr8 v f).2).h = f.h := rfl
@[simp] theorem lsr8_keeps_i (v : Byte) (f : Ccr) : ((lsr8 v f).2).i = f.i := rfl
@[simp] theorem rol8_keeps_h (v : Byte) (f : Ccr) : ((rol8 v f).2).h = f.h := rfl
@[simp] theorem rol8_keeps_i (v : Byte) (f : Ccr) : ((rol8 v f).2).i = f.i := rfl
@[simp] theorem ror8_keeps_h (v : Byte) (f : Ccr) : ((ror8 v f).2).h = f.h := rfl
@[simp] theorem ror8_keeps_i (v : Byte) (f : Ccr) : ((ror8 v f).2).i = f.i := rfl
@[simp] theorem asl16_keeps_h (v : Word) (f : Ccr) : ((asl16 v f).2).h = f.h := rfl
@[simp] theorem asl16_keeps_i (v : Word) (f : Ccr) : ((asl16 v f).2).i = f.i := rfl
@[simp] theorem lsr16_keeps_h (v : Word) (f : Ccr) : ((lsr16 v f).2).h = f.h := rfl
@[simp] theorem lsr16_keeps_i (v : Word) (f : Ccr) : ((lsr16 v f).2).i = f.i := rfl
@[simp] theorem logic8_keeps_h (op : Byte → Byte → Byte) (a m : Byte) (f : Ccr) : ((logic8 op a m f).2).h = f.h := rfl
@[simp] theorem logic8_keeps_i (op : Byte → Byte → Byte) (a m : Byte) (f : Ccr) : ((logic8 op a m f).2).i = f.i := rfl
@[simp] theorem logic8_keeps_c (op : Byte → Byte → Byte) (a m : Byte) (f : Ccr) : ((logic8 op a m f).2).c = f.c := rfl

end Sys2Proof.Machine
end

