-- ==== Sys2Proof/Laws/Memory.lean ====
section
/-! SUPPORT. The laws of the byte array: a read after a write, the canonical form, and that equal arrays are equal data. -/
namespace Sys2Proof.Machine

@[simp] theorem Memory.read_nil (a : Nat) : Memory.read [] a = Memory.unlisted := rfl

theorem Memory.read_cons (k : Nat) (v : Byte) (m : Memory) (a : Nat) :
    Memory.read ((k, v) :: m) a = if k = a then v else Memory.read m a := rfl

theorem Memory.wfFrom_cons (low k : Nat) (v : Byte) (m : Memory) :
    Memory.wfFrom low ((k, v) :: m) = true ↔
      low ≤ k ∧ k < 65536 ∧ v ≠ Memory.unlisted ∧ Memory.wfFrom (k + 1) m = true := by
  simp [Memory.wfFrom, and_assoc]

/-- An address below every listed one reads as unlisted. -/
theorem Memory.read_below (m : Memory) (low a : Nat) (h : Memory.wfFrom low m = true) (ha : a < low) :
    Memory.read m a = Memory.unlisted := by
  induction m generalizing low with
  | nil => rfl
  | cons p m ih =>
    obtain ⟨k, v⟩ := p
    obtain ⟨h1, -, -, h4⟩ := (Memory.wfFrom_cons ..).1 h
    rw [Memory.read_cons, if_neg (by omega)]
    exact ih (k + 1) h4 (by omega)

theorem Memory.wfFrom_mono (m : Memory) (low low' : Nat) (hl : low' ≤ low) (h : Memory.wfFrom low m = true) :
    Memory.wfFrom low' m = true := by
  cases m with
  | nil => rfl
  | cons p m =>
    obtain ⟨k, v⟩ := p
    obtain ⟨h1, h2, h3, h4⟩ := (Memory.wfFrom_cons ..).1 h
    exact (Memory.wfFrom_cons ..).2 ⟨by omega, h2, h3, h4⟩

/-- Read after write, from the canonical form (R61, R75). -/
theorem Memory.read_write_from (m : Memory) (low a a' : Nat) (v : Byte) (h : Memory.wfFrom low m = true) :
    Memory.read (Memory.write m a v) a' = if a' = a then v else Memory.read m a' := by
  induction m generalizing low with
  | nil =>
    unfold Memory.write
    split
    · simp_all
    · simp [Memory.read_cons, eq_comm]
  | cons p m ih =>
    obtain ⟨k, w⟩ := p
    obtain ⟨-, -, -, h4⟩ := (Memory.wfFrom_cons ..).1 h
    unfold Memory.write
    by_cases h1 : a < k
    · rw [if_pos h1]
      by_cases hv : v = Memory.unlisted
      · rw [if_pos hv]
        by_cases ha : a' = a
        · subst ha
          rw [if_pos rfl, Memory.read_cons, if_neg (by omega), hv]
          exact Memory.read_below m (k + 1) a' h4 (by omega)
        · rw [if_neg ha]
      · rw [if_neg hv, Memory.read_cons]
        by_cases ha : a' = a
        · rw [if_pos ha.symm, if_pos ha]
        · rw [if_neg (Ne.symm ha), if_neg ha]
    · rw [if_neg h1]
      by_cases h2 : a = k
      · subst h2
        rw [if_pos rfl]
        by_cases hv : v = Memory.unlisted
        · rw [if_pos hv]
          by_cases ha : a' = a
          · subst ha
            rw [if_pos rfl, hv]
            exact Memory.read_below m (a' + 1) a' h4 (by omega)
          · rw [if_neg ha, Memory.read_cons, if_neg (Ne.symm ha)]
        · rw [if_neg hv, Memory.read_cons, Memory.read_cons]
          by_cases ha : a' = a
          · rw [if_pos ha.symm, if_pos ha]
          · rw [if_neg (Ne.symm ha), if_neg ha, if_neg (Ne.symm ha)]
      · rw [if_neg h2, Memory.read_cons, Memory.read_cons, ih (k + 1) h4]
        by_cases ha : a' = a
        · subst ha
          simp [Ne.symm h2]
        · simp [ha]

/-- Every write keeps the canonical form. -/
theorem Memory.wfFrom_write (m : Memory) (low a : Nat) (v : Byte) (h : Memory.wfFrom low m = true) (hl : low ≤ a)
    (ha : a < 65536) : Memory.wfFrom low (Memory.write m a v) = true := by
  induction m generalizing low with
  | nil =>
    unfold Memory.write
    split
    · rfl
    · exact (Memory.wfFrom_cons ..).2 ⟨hl, ha, by assumption, rfl⟩
  | cons p m ih =>
    obtain ⟨k, w⟩ := p
    obtain ⟨h1, h2, h3, h4⟩ := (Memory.wfFrom_cons ..).1 h
    unfold Memory.write
    by_cases hk : a < k
    · rw [if_pos hk]
      split
      · exact h
      · exact (Memory.wfFrom_cons ..).2 ⟨hl, ha, by assumption, (Memory.wfFrom_cons ..).2 ⟨by omega, h2, h3, h4⟩⟩
    · rw [if_neg hk]
      by_cases hk2 : a = k
      · rw [if_pos hk2]
        split
        · exact Memory.wfFrom_mono m (k + 1) low (by omega) h4
        · exact (Memory.wfFrom_cons ..).2 ⟨hl, ha, by assumption, hk2 ▸ h4⟩
      · rw [if_neg hk2]
        exact (Memory.wfFrom_cons ..).2 ⟨h1, h2, h3, ih (k + 1) h4 (by omega)⟩

theorem Memory.read_write (m : Memory) (a a' : Nat) (v : Byte) (h : m.wf = true) :
    Memory.read (Memory.write m a v) a' = if a' = a then v else Memory.read m a' := Memory.read_write_from m 0 a a' v h

theorem Memory.wf_write (m : Memory) (a : Nat) (v : Byte) (h : m.wf = true) (ha : a < 65536) :
    (Memory.write m a v).wf = true := Memory.wfFrom_write m 0 a v h (by omega) ha

/-- A read elsewhere is not disturbed by a write, whether the list is in its canonical form or not. -/
theorem Memory.read_write_ne (m : Memory) (a a' : Nat) (v : Byte) (h : a' ≠ a) :
    Memory.read (Memory.write m a v) a' = Memory.read m a' := by
  induction m with
  | nil =>
    unfold Memory.write
    split
    · rfl
    · simp [Memory.read_cons, Ne.symm h]
  | cons p m ih =>
    obtain ⟨k, w⟩ := p
    unfold Memory.write
    split
    · split
      · rfl
      · rw [Memory.read_cons, if_neg (Ne.symm h)]
    · split
      · split
        · rw [Memory.read_cons, if_neg (by omega)]
        · rw [Memory.read_cons, Memory.read_cons, if_neg (Ne.symm h), if_neg (by omega)]
      · rw [Memory.read_cons, Memory.read_cons, ih]

theorem Memory.ext_from (m m' : Memory) (low : Nat) (h : Memory.wfFrom low m = true) (h' : Memory.wfFrom low m' = true)
    (heq : ∀ a, m.read a = m'.read a) : m = m' := by
  induction m generalizing low m' with
  | nil =>
    cases m' with
    | nil => rfl
    | cons p r =>
      obtain ⟨k, v⟩ := p
      obtain ⟨-, -, h3, -⟩ := (Memory.wfFrom_cons ..).1 h'
      have := heq k
      rw [Memory.read_nil, Memory.read_cons, if_pos rfl] at this
      exact absurd this.symm h3
  | cons p m ih =>
    obtain ⟨k, v⟩ := p
    obtain ⟨h1, h2, h3, h4⟩ := (Memory.wfFrom_cons ..).1 h
    cases m' with
    | nil =>
      have := heq k
      rw [Memory.read_nil, Memory.read_cons, if_pos rfl] at this
      exact absurd this h3
    | cons q r =>
      obtain ⟨j, w⟩ := q
      obtain ⟨g1, g2, g3, g4⟩ := (Memory.wfFrom_cons ..).1 h'
      have hk := heq k
      have hj := heq j
      rw [Memory.read_cons, Memory.read_cons, if_pos rfl] at hk
      rw [Memory.read_cons, Memory.read_cons, if_pos (rfl : j = j)] at hj
      have hkj : k = j := by
        rcases Nat.lt_trichotomy k j with hlt | he | hgt
        · rw [if_neg (by omega), Memory.read_below r (j + 1) k g4 (by omega)] at hk
          exact absurd hk h3
        · exact he
        · rw [if_neg (by omega), Memory.read_below m (k + 1) j h4 (by omega)] at hj
          exact absurd hj.symm g3
      subst hkj
      rw [if_pos rfl] at hk
      subst hk
      refine congrArg _ (ih r (k + 1) h4 g4 fun a => ?_)
      have ha := heq a
      rw [Memory.read_cons, Memory.read_cons] at ha
      by_cases hka : k = a
      · subst hka
        rw [Memory.read_below m (k + 1) k h4 (by omega), Memory.read_below r (k + 1) k g4 (by omega)]
      · rwa [if_neg hka, if_neg hka] at ha

/-- Two canonical arrays that read alike everywhere are the same data. -/
theorem Memory.ext (m m' : Memory) (h : m.wf = true) (h' : m'.wf = true) (heq : ∀ a, m.read a = m'.read a) : m = m' :=
  Memory.ext_from m m' 0 h h' heq

end Sys2Proof.Machine
end

