-- ==== Sys2Proof/Laws/State.lean ====
section
/-! SUPPORT. For each named update of the state, one lemma for each field it leaves alone, tagged for `simp`, so that no
proof unfolds a record update. The lemmas of a derived operation rest on those of the operations it is made of. -/
namespace Sys2Proof.Machine

/-! ### Writing D -/

@[simp] theorem State.setD_x (s : State) (v : Word) : (s.setD v).x = s.x := rfl
@[simp] theorem State.setD_sp (s : State) (v : Word) : (s.setD v).sp = s.sp := rfl
@[simp] theorem State.setD_pc (s : State) (v : Word) : (s.setD v).pc = s.pc := rfl
@[simp] theorem State.setD_ccr (s : State) (v : Word) : (s.setD v).ccr = s.ccr := rfl
@[simp] theorem State.setD_mem (s : State) (v : Word) : (s.setD v).mem = s.mem := rfl
@[simp] theorem State.setD_tcsr (s : State) (v : Word) : (s.setD v).tcsr = s.tcsr := rfl
@[simp] theorem State.setD_frc (s : State) (v : Word) : (s.setD v).frc = s.frc := rfl
@[simp] theorem State.setD_ocr (s : State) (v : Word) : (s.setD v).ocr = s.ocr := rfl
@[simp] theorem State.setD_trcsr (s : State) (v : Word) : (s.setD v).trcsr = s.trcsr := rfl
@[simp] theorem State.setD_rdr (s : State) (v : Word) : (s.setD v).rdr = s.rdr := rfl
@[simp] theorem State.setD_tdr (s : State) (v : Word) : (s.setD v).tdr = s.tdr := rfl
@[simp] theorem State.setD_txPending (s : State) (v : Word) : (s.setD v).txPending = s.txPending := rfl
@[simp] theorem State.setD_ocArmed (s : State) (v : Word) : (s.setD v).ocArmed = s.ocArmed := rfl
@[simp] theorem State.setD_tofArmed (s : State) (v : Word) : (s.setD v).tofArmed = s.tofArmed := rfl
@[simp] theorem State.setD_wait (s : State) (v : Word) : (s.setD v).wait = s.wait := rfl
@[simp] theorem State.setD_halted (s : State) (v : Word) : (s.setD v).halted = s.halted := rfl
@[simp] theorem State.setD_cycles (s : State) (v : Word) : (s.setD v).cycles = s.cycles := rfl
@[simp] theorem State.setD_free (s : State) (v : Word) : (s.setD v).free = s.free := rfl
@[simp] theorem State.setD_cfg (s : State) (v : Word) : (s.setD v).cfg = s.cfg := rfl

/-! ### Writing an accumulator -/

@[simp] theorem State.setAcc_x (s : State) (r : Acc) (v : Byte) : (s.setAcc r v).x = s.x := by cases r <;> rfl
@[simp] theorem State.setAcc_sp (s : State) (r : Acc) (v : Byte) : (s.setAcc r v).sp = s.sp := by cases r <;> rfl
@[simp] theorem State.setAcc_pc (s : State) (r : Acc) (v : Byte) : (s.setAcc r v).pc = s.pc := by cases r <;> rfl
@[simp] theorem State.setAcc_ccr (s : State) (r : Acc) (v : Byte) : (s.setAcc r v).ccr = s.ccr := by cases r <;> rfl
@[simp] theorem State.setAcc_mem (s : State) (r : Acc) (v : Byte) : (s.setAcc r v).mem = s.mem := by cases r <;> rfl
@[simp] theorem State.setAcc_tcsr (s : State) (r : Acc) (v : Byte) : (s.setAcc r v).tcsr = s.tcsr := by cases r <;> rfl
@[simp] theorem State.setAcc_frc (s : State) (r : Acc) (v : Byte) : (s.setAcc r v).frc = s.frc := by cases r <;> rfl
@[simp] theorem State.setAcc_ocr (s : State) (r : Acc) (v : Byte) : (s.setAcc r v).ocr = s.ocr := by cases r <;> rfl
@[simp] theorem State.setAcc_trcsr (s : State) (r : Acc) (v : Byte) : (s.setAcc r v).trcsr = s.trcsr := by cases r <;> rfl
@[simp] theorem State.setAcc_rdr (s : State) (r : Acc) (v : Byte) : (s.setAcc r v).rdr = s.rdr := by cases r <;> rfl
@[simp] theorem State.setAcc_tdr (s : State) (r : Acc) (v : Byte) : (s.setAcc r v).tdr = s.tdr := by cases r <;> rfl
@[simp] theorem State.setAcc_txPending (s : State) (r : Acc) (v : Byte) : (s.setAcc r v).txPending = s.txPending := by cases r <;> rfl
@[simp] theorem State.setAcc_ocArmed (s : State) (r : Acc) (v : Byte) : (s.setAcc r v).ocArmed = s.ocArmed := by cases r <;> rfl
@[simp] theorem State.setAcc_tofArmed (s : State) (r : Acc) (v : Byte) : (s.setAcc r v).tofArmed = s.tofArmed := by cases r <;> rfl
@[simp] theorem State.setAcc_wait (s : State) (r : Acc) (v : Byte) : (s.setAcc r v).wait = s.wait := by cases r <;> rfl
@[simp] theorem State.setAcc_halted (s : State) (r : Acc) (v : Byte) : (s.setAcc r v).halted = s.halted := by cases r <;> rfl
@[simp] theorem State.setAcc_cycles (s : State) (r : Acc) (v : Byte) : (s.setAcc r v).cycles = s.cycles := by cases r <;> rfl
@[simp] theorem State.setAcc_free (s : State) (r : Acc) (v : Byte) : (s.setAcc r v).free = s.free := by cases r <;> rfl
@[simp] theorem State.setAcc_cfg (s : State) (r : Acc) (v : Byte) : (s.setAcc r v).cfg = s.cfg := by cases r <;> rfl

/-- Reading back the accumulator just written. -/
@[simp] theorem State.acc_setAcc (s : State) (r : Acc) (v : Byte) : (s.setAcc r v).acc r = v := by cases r <;> rfl

/-! ### Arming the flag-clear latches (R433a, R434a) -/

@[simp] theorem State.armLatches_a (s : State) : (s.armLatches).a = s.a := rfl
@[simp] theorem State.armLatches_b (s : State) : (s.armLatches).b = s.b := rfl
@[simp] theorem State.armLatches_x (s : State) : (s.armLatches).x = s.x := rfl
@[simp] theorem State.armLatches_sp (s : State) : (s.armLatches).sp = s.sp := rfl
@[simp] theorem State.armLatches_pc (s : State) : (s.armLatches).pc = s.pc := rfl
@[simp] theorem State.armLatches_ccr (s : State) : (s.armLatches).ccr = s.ccr := rfl
@[simp] theorem State.armLatches_mem (s : State) : (s.armLatches).mem = s.mem := rfl
@[simp] theorem State.armLatches_tcsr (s : State) : (s.armLatches).tcsr = s.tcsr := rfl
@[simp] theorem State.armLatches_frc (s : State) : (s.armLatches).frc = s.frc := rfl
@[simp] theorem State.armLatches_ocr (s : State) : (s.armLatches).ocr = s.ocr := rfl
@[simp] theorem State.armLatches_trcsr (s : State) : (s.armLatches).trcsr = s.trcsr := rfl
@[simp] theorem State.armLatches_rdr (s : State) : (s.armLatches).rdr = s.rdr := rfl
@[simp] theorem State.armLatches_tdr (s : State) : (s.armLatches).tdr = s.tdr := rfl
@[simp] theorem State.armLatches_txPending (s : State) : (s.armLatches).txPending = s.txPending := rfl
@[simp] theorem State.armLatches_wait (s : State) : (s.armLatches).wait = s.wait := rfl
@[simp] theorem State.armLatches_halted (s : State) : (s.armLatches).halted = s.halted := rfl
@[simp] theorem State.armLatches_cycles (s : State) : (s.armLatches).cycles = s.cycles := rfl
@[simp] theorem State.armLatches_free (s : State) : (s.armLatches).free = s.free := rfl
@[simp] theorem State.armLatches_cfg (s : State) : (s.armLatches).cfg = s.cfg := rfl

/-! ### Clearing TOF (R434b) -/

@[simp] theorem State.clearTof_a (s : State) : (s.clearTof).a = s.a := rfl
@[simp] theorem State.clearTof_b (s : State) : (s.clearTof).b = s.b := rfl
@[simp] theorem State.clearTof_x (s : State) : (s.clearTof).x = s.x := rfl
@[simp] theorem State.clearTof_sp (s : State) : (s.clearTof).sp = s.sp := rfl
@[simp] theorem State.clearTof_pc (s : State) : (s.clearTof).pc = s.pc := rfl
@[simp] theorem State.clearTof_ccr (s : State) : (s.clearTof).ccr = s.ccr := rfl
@[simp] theorem State.clearTof_mem (s : State) : (s.clearTof).mem = s.mem := rfl
@[simp] theorem State.clearTof_frc (s : State) : (s.clearTof).frc = s.frc := rfl
@[simp] theorem State.clearTof_ocr (s : State) : (s.clearTof).ocr = s.ocr := rfl
@[simp] theorem State.clearTof_trcsr (s : State) : (s.clearTof).trcsr = s.trcsr := rfl
@[simp] theorem State.clearTof_rdr (s : State) : (s.clearTof).rdr = s.rdr := rfl
@[simp] theorem State.clearTof_tdr (s : State) : (s.clearTof).tdr = s.tdr := rfl
@[simp] theorem State.clearTof_txPending (s : State) : (s.clearTof).txPending = s.txPending := rfl
@[simp] theorem State.clearTof_ocArmed (s : State) : (s.clearTof).ocArmed = s.ocArmed := rfl
@[simp] theorem State.clearTof_wait (s : State) : (s.clearTof).wait = s.wait := rfl
@[simp] theorem State.clearTof_halted (s : State) : (s.clearTof).halted = s.halted := rfl
@[simp] theorem State.clearTof_cycles (s : State) : (s.clearTof).cycles = s.cycles := rfl
@[simp] theorem State.clearTof_free (s : State) : (s.clearTof).free = s.free := rfl
@[simp] theorem State.clearTof_cfg (s : State) : (s.clearTof).cfg = s.cfg := rfl

/-! ### Clearing OCF (R433b) -/

@[simp] theorem State.clearOcf_a (s : State) : (s.clearOcf).a = s.a := rfl
@[simp] theorem State.clearOcf_b (s : State) : (s.clearOcf).b = s.b := rfl
@[simp] theorem State.clearOcf_x (s : State) : (s.clearOcf).x = s.x := rfl
@[simp] theorem State.clearOcf_sp (s : State) : (s.clearOcf).sp = s.sp := rfl
@[simp] theorem State.clearOcf_pc (s : State) : (s.clearOcf).pc = s.pc := rfl
@[simp] theorem State.clearOcf_ccr (s : State) : (s.clearOcf).ccr = s.ccr := rfl
@[simp] theorem State.clearOcf_mem (s : State) : (s.clearOcf).mem = s.mem := rfl
@[simp] theorem State.clearOcf_frc (s : State) : (s.clearOcf).frc = s.frc := rfl
@[simp] theorem State.clearOcf_ocr (s : State) : (s.clearOcf).ocr = s.ocr := rfl
@[simp] theorem State.clearOcf_trcsr (s : State) : (s.clearOcf).trcsr = s.trcsr := rfl
@[simp] theorem State.clearOcf_rdr (s : State) : (s.clearOcf).rdr = s.rdr := rfl
@[simp] theorem State.clearOcf_tdr (s : State) : (s.clearOcf).tdr = s.tdr := rfl
@[simp] theorem State.clearOcf_txPending (s : State) : (s.clearOcf).txPending = s.txPending := rfl
@[simp] theorem State.clearOcf_tofArmed (s : State) : (s.clearOcf).tofArmed = s.tofArmed := rfl
@[simp] theorem State.clearOcf_wait (s : State) : (s.clearOcf).wait = s.wait := rfl
@[simp] theorem State.clearOcf_halted (s : State) : (s.clearOcf).halted = s.halted := rfl
@[simp] theorem State.clearOcf_cycles (s : State) : (s.clearOcf).cycles = s.cycles := rfl
@[simp] theorem State.clearOcf_free (s : State) : (s.clearOcf).free = s.free := rfl
@[simp] theorem State.clearOcf_cfg (s : State) : (s.clearOcf).cfg = s.cfg := rfl

/-! ### Clearing RDRF and ORFE (R441) -/

@[simp] theorem State.clearReceive_a (s : State) : (s.clearReceive).a = s.a := rfl
@[simp] theorem State.clearReceive_b (s : State) : (s.clearReceive).b = s.b := rfl
@[simp] theorem State.clearReceive_x (s : State) : (s.clearReceive).x = s.x := rfl
@[simp] theorem State.clearReceive_sp (s : State) : (s.clearReceive).sp = s.sp := rfl
@[simp] theorem State.clearReceive_pc (s : State) : (s.clearReceive).pc = s.pc := rfl
@[simp] theorem State.clearReceive_ccr (s : State) : (s.clearReceive).ccr = s.ccr := rfl
@[simp] theorem State.clearReceive_mem (s : State) : (s.clearReceive).mem = s.mem := rfl
@[simp] theorem State.clearReceive_tcsr (s : State) : (s.clearReceive).tcsr = s.tcsr := rfl
@[simp] theorem State.clearReceive_frc (s : State) : (s.clearReceive).frc = s.frc := rfl
@[simp] theorem State.clearReceive_ocr (s : State) : (s.clearReceive).ocr = s.ocr := rfl
@[simp] theorem State.clearReceive_rdr (s : State) : (s.clearReceive).rdr = s.rdr := rfl
@[simp] theorem State.clearReceive_tdr (s : State) : (s.clearReceive).tdr = s.tdr := rfl
@[simp] theorem State.clearReceive_txPending (s : State) : (s.clearReceive).txPending = s.txPending := rfl
@[simp] theorem State.clearReceive_ocArmed (s : State) : (s.clearReceive).ocArmed = s.ocArmed := rfl
@[simp] theorem State.clearReceive_tofArmed (s : State) : (s.clearReceive).tofArmed = s.tofArmed := rfl
@[simp] theorem State.clearReceive_wait (s : State) : (s.clearReceive).wait = s.wait := rfl
@[simp] theorem State.clearReceive_halted (s : State) : (s.clearReceive).halted = s.halted := rfl
@[simp] theorem State.clearReceive_cycles (s : State) : (s.clearReceive).cycles = s.cycles := rfl
@[simp] theorem State.clearReceive_free (s : State) : (s.clearReceive).free = s.free := rfl
@[simp] theorem State.clearReceive_cfg (s : State) : (s.clearReceive).cfg = s.cfg := rfl

/-! ### The side effect of a program read (R62, R72) -/

@[simp] theorem State.touch_a (s : State) (p : Word) : (s.touch p).a = s.a := by unfold State.touch; split <;> rfl
@[simp] theorem State.touch_b (s : State) (p : Word) : (s.touch p).b = s.b := by unfold State.touch; split <;> rfl
@[simp] theorem State.touch_x (s : State) (p : Word) : (s.touch p).x = s.x := by unfold State.touch; split <;> rfl
@[simp] theorem State.touch_sp (s : State) (p : Word) : (s.touch p).sp = s.sp := by unfold State.touch; split <;> rfl
@[simp] theorem State.touch_pc (s : State) (p : Word) : (s.touch p).pc = s.pc := by unfold State.touch; split <;> rfl
@[simp] theorem State.touch_ccr (s : State) (p : Word) : (s.touch p).ccr = s.ccr := by unfold State.touch; split <;> rfl
@[simp] theorem State.touch_mem (s : State) (p : Word) : (s.touch p).mem = s.mem := by unfold State.touch; split <;> rfl
@[simp] theorem State.touch_frc (s : State) (p : Word) : (s.touch p).frc = s.frc := by unfold State.touch; split <;> rfl
@[simp] theorem State.touch_ocr (s : State) (p : Word) : (s.touch p).ocr = s.ocr := by unfold State.touch; split <;> rfl
@[simp] theorem State.touch_rdr (s : State) (p : Word) : (s.touch p).rdr = s.rdr := by unfold State.touch; split <;> rfl
@[simp] theorem State.touch_tdr (s : State) (p : Word) : (s.touch p).tdr = s.tdr := by unfold State.touch; split <;> rfl
@[simp] theorem State.touch_txPending (s : State) (p : Word) : (s.touch p).txPending = s.txPending := by unfold State.touch; split <;> rfl
@[simp] theorem State.touch_wait (s : State) (p : Word) : (s.touch p).wait = s.wait := by unfold State.touch; split <;> rfl
@[simp] theorem State.touch_halted (s : State) (p : Word) : (s.touch p).halted = s.halted := by unfold State.touch; split <;> rfl
@[simp] theorem State.touch_cycles (s : State) (p : Word) : (s.touch p).cycles = s.cycles := by unfold State.touch; split <;> rfl
@[simp] theorem State.touch_free (s : State) (p : Word) : (s.touch p).free = s.free := by unfold State.touch; split <;> rfl
@[simp] theorem State.touch_cfg (s : State) (p : Word) : (s.touch p).cfg = s.cfg := by unfold State.touch; split <;> rfl

/-! ### A program write of one byte (R63) -/

@[simp] theorem memWrite_a (s : State) (p : Word) (v : Byte) : (memWrite p v s).a = s.a := by unfold memWrite; split <;> rfl
@[simp] theorem memWrite_b (s : State) (p : Word) (v : Byte) : (memWrite p v s).b = s.b := by unfold memWrite; split <;> rfl
@[simp] theorem memWrite_x (s : State) (p : Word) (v : Byte) : (memWrite p v s).x = s.x := by unfold memWrite; split <;> rfl
@[simp] theorem memWrite_sp (s : State) (p : Word) (v : Byte) : (memWrite p v s).sp = s.sp := by unfold memWrite; split <;> rfl
@[simp] theorem memWrite_pc (s : State) (p : Word) (v : Byte) : (memWrite p v s).pc = s.pc := by unfold memWrite; split <;> rfl
@[simp] theorem memWrite_ccr (s : State) (p : Word) (v : Byte) : (memWrite p v s).ccr = s.ccr := by unfold memWrite; split <;> rfl
@[simp] theorem memWrite_rdr (s : State) (p : Word) (v : Byte) : (memWrite p v s).rdr = s.rdr := by unfold memWrite; split <;> rfl
@[simp] theorem memWrite_tofArmed (s : State) (p : Word) (v : Byte) : (memWrite p v s).tofArmed = s.tofArmed := by unfold memWrite; split <;> rfl
@[simp] theorem memWrite_wait (s : State) (p : Word) (v : Byte) : (memWrite p v s).wait = s.wait := by unfold memWrite; split <;> rfl
@[simp] theorem memWrite_halted (s : State) (p : Word) (v : Byte) : (memWrite p v s).halted = s.halted := by unfold memWrite; split <;> rfl
@[simp] theorem memWrite_cycles (s : State) (p : Word) (v : Byte) : (memWrite p v s).cycles = s.cycles := by unfold memWrite; split <;> rfl
@[simp] theorem memWrite_free (s : State) (p : Word) (v : Byte) : (memWrite p v s).free = s.free := by unfold memWrite; split <;> rfl
@[simp] theorem memWrite_cfg (s : State) (p : Word) (v : Byte) : (memWrite p v s).cfg = s.cfg := by unfold memWrite; split <;> rfl

/-! ### A program write of two bytes (R64) -/

@[simp] theorem memWrite16_a (s : State) (p : Word) (v : Word) : (memWrite16 p v s).a = s.a := by rw [memWrite16, memWrite_a, memWrite_a]
@[simp] theorem memWrite16_b (s : State) (p : Word) (v : Word) : (memWrite16 p v s).b = s.b := by rw [memWrite16, memWrite_b, memWrite_b]
@[simp] theorem memWrite16_x (s : State) (p : Word) (v : Word) : (memWrite16 p v s).x = s.x := by rw [memWrite16, memWrite_x, memWrite_x]
@[simp] theorem memWrite16_sp (s : State) (p : Word) (v : Word) : (memWrite16 p v s).sp = s.sp := by rw [memWrite16, memWrite_sp, memWrite_sp]
@[simp] theorem memWrite16_pc (s : State) (p : Word) (v : Word) : (memWrite16 p v s).pc = s.pc := by rw [memWrite16, memWrite_pc, memWrite_pc]
@[simp] theorem memWrite16_ccr (s : State) (p : Word) (v : Word) : (memWrite16 p v s).ccr = s.ccr := by rw [memWrite16, memWrite_ccr, memWrite_ccr]
@[simp] theorem memWrite16_rdr (s : State) (p : Word) (v : Word) : (memWrite16 p v s).rdr = s.rdr := by rw [memWrite16, memWrite_rdr, memWrite_rdr]
@[simp] theorem memWrite16_tofArmed (s : State) (p : Word) (v : Word) : (memWrite16 p v s).tofArmed = s.tofArmed := by rw [memWrite16, memWrite_tofArmed, memWrite_tofArmed]
@[simp] theorem memWrite16_wait (s : State) (p : Word) (v : Word) : (memWrite16 p v s).wait = s.wait := by rw [memWrite16, memWrite_wait, memWrite_wait]
@[simp] theorem memWrite16_halted (s : State) (p : Word) (v : Word) : (memWrite16 p v s).halted = s.halted := by rw [memWrite16, memWrite_halted, memWrite_halted]
@[simp] theorem memWrite16_cycles (s : State) (p : Word) (v : Word) : (memWrite16 p v s).cycles = s.cycles := by rw [memWrite16, memWrite_cycles, memWrite_cycles]
@[simp] theorem memWrite16_free (s : State) (p : Word) (v : Word) : (memWrite16 p v s).free = s.free := by rw [memWrite16, memWrite_free, memWrite_free]
@[simp] theorem memWrite16_cfg (s : State) (p : Word) (v : Word) : (memWrite16 p v s).cfg = s.cfg := by rw [memWrite16, memWrite_cfg, memWrite_cfg]

/-! ### Pushes (R70, R71, R420) -/

@[simp] theorem push8_a (s : State) (v : Byte) : (push8 v s).a = s.a := memWrite_a ..
@[simp] theorem push8_b (s : State) (v : Byte) : (push8 v s).b = s.b := memWrite_b ..
@[simp] theorem push8_x (s : State) (v : Byte) : (push8 v s).x = s.x := memWrite_x ..
@[simp] theorem push8_pc (s : State) (v : Byte) : (push8 v s).pc = s.pc := memWrite_pc ..
@[simp] theorem push8_ccr (s : State) (v : Byte) : (push8 v s).ccr = s.ccr := memWrite_ccr ..
@[simp] theorem push8_rdr (s : State) (v : Byte) : (push8 v s).rdr = s.rdr := memWrite_rdr ..
@[simp] theorem push8_tofArmed (s : State) (v : Byte) : (push8 v s).tofArmed = s.tofArmed := memWrite_tofArmed ..
@[simp] theorem push8_wait (s : State) (v : Byte) : (push8 v s).wait = s.wait := memWrite_wait ..
@[simp] theorem push8_halted (s : State) (v : Byte) : (push8 v s).halted = s.halted := memWrite_halted ..
@[simp] theorem push8_cycles (s : State) (v : Byte) : (push8 v s).cycles = s.cycles := memWrite_cycles ..
@[simp] theorem push8_free (s : State) (v : Byte) : (push8 v s).free = s.free := memWrite_free ..
@[simp] theorem push8_cfg (s : State) (v : Byte) : (push8 v s).cfg = s.cfg := memWrite_cfg ..

@[simp] theorem push8_sp (s : State) (v : Byte) : (push8 v s).sp = s.sp - 1 := congrArg (· - 1) (memWrite_sp ..)

@[simp] theorem push16_a (s : State) (v : Word) : (push16 v s).a = s.a := by rw [push16, push8_a, push8_a]
@[simp] theorem push16_b (s : State) (v : Word) : (push16 v s).b = s.b := by rw [push16, push8_b, push8_b]
@[simp] theorem push16_x (s : State) (v : Word) : (push16 v s).x = s.x := by rw [push16, push8_x, push8_x]
@[simp] theorem push16_pc (s : State) (v : Word) : (push16 v s).pc = s.pc := by rw [push16, push8_pc, push8_pc]
@[simp] theorem push16_ccr (s : State) (v : Word) : (push16 v s).ccr = s.ccr := by rw [push16, push8_ccr, push8_ccr]
@[simp] theorem push16_rdr (s : State) (v : Word) : (push16 v s).rdr = s.rdr := by rw [push16, push8_rdr, push8_rdr]
@[simp] theorem push16_tofArmed (s : State) (v : Word) : (push16 v s).tofArmed = s.tofArmed := by rw [push16, push8_tofArmed, push8_tofArmed]
@[simp] theorem push16_wait (s : State) (v : Word) : (push16 v s).wait = s.wait := by rw [push16, push8_wait, push8_wait]
@[simp] theorem push16_halted (s : State) (v : Word) : (push16 v s).halted = s.halted := by rw [push16, push8_halted, push8_halted]
@[simp] theorem push16_cycles (s : State) (v : Word) : (push16 v s).cycles = s.cycles := by rw [push16, push8_cycles, push8_cycles]
@[simp] theorem push16_free (s : State) (v : Word) : (push16 v s).free = s.free := by rw [push16, push8_free, push8_free]
@[simp] theorem push16_cfg (s : State) (v : Word) : (push16 v s).cfg = s.cfg := by rw [push16, push8_cfg, push8_cfg]

@[simp] theorem push16_sp (s : State) (v : Word) : (push16 v s).sp = s.sp - 2 := by
  rw [push16, push8_sp, push8_sp, BitVec.sub_sub]; rfl

@[simp] theorem stackAll_a (s : State) : (stackAll s).a = s.a := by
  simp only [stackAll, push8_a, push16_a]
@[simp] theorem stackAll_b (s : State) : (stackAll s).b = s.b := by
  simp only [stackAll, push8_b, push16_b]
@[simp] theorem stackAll_x (s : State) : (stackAll s).x = s.x := by
  simp only [stackAll, push8_x, push16_x]
@[simp] theorem stackAll_pc (s : State) : (stackAll s).pc = s.pc := by
  simp only [stackAll, push8_pc, push16_pc]
@[simp] theorem stackAll_ccr (s : State) : (stackAll s).ccr = s.ccr := by
  simp only [stackAll, push8_ccr, push16_ccr]
@[simp] theorem stackAll_rdr (s : State) : (stackAll s).rdr = s.rdr := by
  simp only [stackAll, push8_rdr, push16_rdr]
@[simp] theorem stackAll_tofArmed (s : State) : (stackAll s).tofArmed = s.tofArmed := by
  simp only [stackAll, push8_tofArmed, push16_tofArmed]
@[simp] theorem stackAll_wait (s : State) : (stackAll s).wait = s.wait := by
  simp only [stackAll, push8_wait, push16_wait]
@[simp] theorem stackAll_halted (s : State) : (stackAll s).halted = s.halted := by
  simp only [stackAll, push8_halted, push16_halted]
@[simp] theorem stackAll_cycles (s : State) : (stackAll s).cycles = s.cycles := by
  simp only [stackAll, push8_cycles, push16_cycles]
@[simp] theorem stackAll_free (s : State) : (stackAll s).free = s.free := by
  simp only [stackAll, push8_free, push16_free]
@[simp] theorem stackAll_cfg (s : State) : (stackAll s).cfg = s.cfg := by
  simp only [stackAll, push8_cfg, push16_cfg]

@[simp] theorem stackAll_sp (s : State) : (stackAll s).sp = s.sp - 7 := by
  simp only [stackAll, push8_sp, push16_sp, BitVec.sub_sub]; rfl

/-! ### Program reads and pulls (R62, R64, R70, R71) -/

@[simp] theorem memRead_a (s : State) (p : Word) : ((memRead p s).2).a = s.a := State.touch_a ..
@[simp] theorem memRead_b (s : State) (p : Word) : ((memRead p s).2).b = s.b := State.touch_b ..
@[simp] theorem memRead_x (s : State) (p : Word) : ((memRead p s).2).x = s.x := State.touch_x ..
@[simp] theorem memRead_sp (s : State) (p : Word) : ((memRead p s).2).sp = s.sp := State.touch_sp ..
@[simp] theorem memRead_pc (s : State) (p : Word) : ((memRead p s).2).pc = s.pc := State.touch_pc ..
@[simp] theorem memRead_ccr (s : State) (p : Word) : ((memRead p s).2).ccr = s.ccr := State.touch_ccr ..
@[simp] theorem memRead_mem (s : State) (p : Word) : ((memRead p s).2).mem = s.mem := State.touch_mem ..
@[simp] theorem memRead_frc (s : State) (p : Word) : ((memRead p s).2).frc = s.frc := State.touch_frc ..
@[simp] theorem memRead_ocr (s : State) (p : Word) : ((memRead p s).2).ocr = s.ocr := State.touch_ocr ..
@[simp] theorem memRead_rdr (s : State) (p : Word) : ((memRead p s).2).rdr = s.rdr := State.touch_rdr ..
@[simp] theorem memRead_tdr (s : State) (p : Word) : ((memRead p s).2).tdr = s.tdr := State.touch_tdr ..
@[simp] theorem memRead_txPending (s : State) (p : Word) : ((memRead p s).2).txPending = s.txPending := State.touch_txPending ..
@[simp] theorem memRead_wait (s : State) (p : Word) : ((memRead p s).2).wait = s.wait := State.touch_wait ..
@[simp] theorem memRead_halted (s : State) (p : Word) : ((memRead p s).2).halted = s.halted := State.touch_halted ..
@[simp] theorem memRead_cycles (s : State) (p : Word) : ((memRead p s).2).cycles = s.cycles := State.touch_cycles ..
@[simp] theorem memRead_free (s : State) (p : Word) : ((memRead p s).2).free = s.free := State.touch_free ..
@[simp] theorem memRead_cfg (s : State) (p : Word) : ((memRead p s).2).cfg = s.cfg := State.touch_cfg ..

@[simp] theorem memRead16_a (s : State) (p : Word) : ((memRead16 p s).2).a = s.a := (State.touch_a ..).trans (State.touch_a ..)
@[simp] theorem memRead16_b (s : State) (p : Word) : ((memRead16 p s).2).b = s.b := (State.touch_b ..).trans (State.touch_b ..)
@[simp] theorem memRead16_x (s : State) (p : Word) : ((memRead16 p s).2).x = s.x := (State.touch_x ..).trans (State.touch_x ..)
@[simp] theorem memRead16_sp (s : State) (p : Word) : ((memRead16 p s).2).sp = s.sp := (State.touch_sp ..).trans (State.touch_sp ..)
@[simp] theorem memRead16_pc (s : State) (p : Word) : ((memRead16 p s).2).pc = s.pc := (State.touch_pc ..).trans (State.touch_pc ..)
@[simp] theorem memRead16_ccr (s : State) (p : Word) : ((memRead16 p s).2).ccr = s.ccr := (State.touch_ccr ..).trans (State.touch_ccr ..)
@[simp] theorem memRead16_mem (s : State) (p : Word) : ((memRead16 p s).2).mem = s.mem := (State.touch_mem ..).trans (State.touch_mem ..)
@[simp] theorem memRead16_frc (s : State) (p : Word) : ((memRead16 p s).2).frc = s.frc := (State.touch_frc ..).trans (State.touch_frc ..)
@[simp] theorem memRead16_ocr (s : State) (p : Word) : ((memRead16 p s).2).ocr = s.ocr := (State.touch_ocr ..).trans (State.touch_ocr ..)
@[simp] theorem memRead16_rdr (s : State) (p : Word) : ((memRead16 p s).2).rdr = s.rdr := (State.touch_rdr ..).trans (State.touch_rdr ..)
@[simp] theorem memRead16_tdr (s : State) (p : Word) : ((memRead16 p s).2).tdr = s.tdr := (State.touch_tdr ..).trans (State.touch_tdr ..)
@[simp] theorem memRead16_txPending (s : State) (p : Word) : ((memRead16 p s).2).txPending = s.txPending := (State.touch_txPending ..).trans (State.touch_txPending ..)
@[simp] theorem memRead16_wait (s : State) (p : Word) : ((memRead16 p s).2).wait = s.wait := (State.touch_wait ..).trans (State.touch_wait ..)
@[simp] theorem memRead16_halted (s : State) (p : Word) : ((memRead16 p s).2).halted = s.halted := (State.touch_halted ..).trans (State.touch_halted ..)
@[simp] theorem memRead16_cycles (s : State) (p : Word) : ((memRead16 p s).2).cycles = s.cycles := (State.touch_cycles ..).trans (State.touch_cycles ..)
@[simp] theorem memRead16_free (s : State) (p : Word) : ((memRead16 p s).2).free = s.free := (State.touch_free ..).trans (State.touch_free ..)
@[simp] theorem memRead16_cfg (s : State) (p : Word) : ((memRead16 p s).2).cfg = s.cfg := (State.touch_cfg ..).trans (State.touch_cfg ..)

@[simp] theorem pull8_a (s : State) : ((pull8 s).2).a = s.a := State.touch_a ..
@[simp] theorem pull8_b (s : State) : ((pull8 s).2).b = s.b := State.touch_b ..
@[simp] theorem pull8_x (s : State) : ((pull8 s).2).x = s.x := State.touch_x ..
@[simp] theorem pull8_pc (s : State) : ((pull8 s).2).pc = s.pc := State.touch_pc ..
@[simp] theorem pull8_ccr (s : State) : ((pull8 s).2).ccr = s.ccr := State.touch_ccr ..
@[simp] theorem pull8_mem (s : State) : ((pull8 s).2).mem = s.mem := State.touch_mem ..
@[simp] theorem pull8_frc (s : State) : ((pull8 s).2).frc = s.frc := State.touch_frc ..
@[simp] theorem pull8_ocr (s : State) : ((pull8 s).2).ocr = s.ocr := State.touch_ocr ..
@[simp] theorem pull8_rdr (s : State) : ((pull8 s).2).rdr = s.rdr := State.touch_rdr ..
@[simp] theorem pull8_tdr (s : State) : ((pull8 s).2).tdr = s.tdr := State.touch_tdr ..
@[simp] theorem pull8_txPending (s : State) : ((pull8 s).2).txPending = s.txPending := State.touch_txPending ..
@[simp] theorem pull8_wait (s : State) : ((pull8 s).2).wait = s.wait := State.touch_wait ..
@[simp] theorem pull8_halted (s : State) : ((pull8 s).2).halted = s.halted := State.touch_halted ..
@[simp] theorem pull8_cycles (s : State) : ((pull8 s).2).cycles = s.cycles := State.touch_cycles ..
@[simp] theorem pull8_free (s : State) : ((pull8 s).2).free = s.free := State.touch_free ..
@[simp] theorem pull8_cfg (s : State) : ((pull8 s).2).cfg = s.cfg := State.touch_cfg ..

@[simp] theorem pull8_sp (s : State) : (pull8 s).2.sp = s.sp + 1 := State.touch_sp ..

@[simp] theorem pull16_a (s : State) : ((pull16 s).2).a = s.a := (pull8_a _).trans (pull8_a s)
@[simp] theorem pull16_b (s : State) : ((pull16 s).2).b = s.b := (pull8_b _).trans (pull8_b s)
@[simp] theorem pull16_x (s : State) : ((pull16 s).2).x = s.x := (pull8_x _).trans (pull8_x s)
@[simp] theorem pull16_pc (s : State) : ((pull16 s).2).pc = s.pc := (pull8_pc _).trans (pull8_pc s)
@[simp] theorem pull16_ccr (s : State) : ((pull16 s).2).ccr = s.ccr := (pull8_ccr _).trans (pull8_ccr s)
@[simp] theorem pull16_mem (s : State) : ((pull16 s).2).mem = s.mem := (pull8_mem _).trans (pull8_mem s)
@[simp] theorem pull16_frc (s : State) : ((pull16 s).2).frc = s.frc := (pull8_frc _).trans (pull8_frc s)
@[simp] theorem pull16_ocr (s : State) : ((pull16 s).2).ocr = s.ocr := (pull8_ocr _).trans (pull8_ocr s)
@[simp] theorem pull16_rdr (s : State) : ((pull16 s).2).rdr = s.rdr := (pull8_rdr _).trans (pull8_rdr s)
@[simp] theorem pull16_tdr (s : State) : ((pull16 s).2).tdr = s.tdr := (pull8_tdr _).trans (pull8_tdr s)
@[simp] theorem pull16_txPending (s : State) : ((pull16 s).2).txPending = s.txPending := (pull8_txPending _).trans (pull8_txPending s)
@[simp] theorem pull16_wait (s : State) : ((pull16 s).2).wait = s.wait := (pull8_wait _).trans (pull8_wait s)
@[simp] theorem pull16_halted (s : State) : ((pull16 s).2).halted = s.halted := (pull8_halted _).trans (pull8_halted s)
@[simp] theorem pull16_cycles (s : State) : ((pull16 s).2).cycles = s.cycles := (pull8_cycles _).trans (pull8_cycles s)
@[simp] theorem pull16_free (s : State) : ((pull16 s).2).free = s.free := (pull8_free _).trans (pull8_free s)
@[simp] theorem pull16_cfg (s : State) : ((pull16 s).2).cfg = s.cfg := (pull8_cfg _).trans (pull8_cfg s)

@[simp] theorem pull16_sp (s : State) : (pull16 s).2.sp = s.sp + 2 := by
  simp only [pull16, pull8_sp, BitVec.add_assoc]; rfl

@[simp] theorem opnd8_a (s : State) (src : Src8) : ((opnd8 src s).2).a = s.a := by
  cases src; exacts [rfl, State.touch_a ..]
@[simp] theorem opnd8_b (s : State) (src : Src8) : ((opnd8 src s).2).b = s.b := by
  cases src; exacts [rfl, State.touch_b ..]
@[simp] theorem opnd8_x (s : State) (src : Src8) : ((opnd8 src s).2).x = s.x := by
  cases src; exacts [rfl, State.touch_x ..]
@[simp] theorem opnd8_sp (s : State) (src : Src8) : ((opnd8 src s).2).sp = s.sp := by
  cases src; exacts [rfl, State.touch_sp ..]
@[simp] theorem opnd8_pc (s : State) (src : Src8) : ((opnd8 src s).2).pc = s.pc := by
  cases src; exacts [rfl, State.touch_pc ..]
@[simp] theorem opnd8_ccr (s : State) (src : Src8) : ((opnd8 src s).2).ccr = s.ccr := by
  cases src; exacts [rfl, State.touch_ccr ..]
@[simp] theorem opnd8_mem (s : State) (src : Src8) : ((opnd8 src s).2).mem = s.mem := by
  cases src; exacts [rfl, State.touch_mem ..]
@[simp] theorem opnd8_frc (s : State) (src : Src8) : ((opnd8 src s).2).frc = s.frc := by
  cases src; exacts [rfl, State.touch_frc ..]
@[simp] theorem opnd8_ocr (s : State) (src : Src8) : ((opnd8 src s).2).ocr = s.ocr := by
  cases src; exacts [rfl, State.touch_ocr ..]
@[simp] theorem opnd8_rdr (s : State) (src : Src8) : ((opnd8 src s).2).rdr = s.rdr := by
  cases src; exacts [rfl, State.touch_rdr ..]
@[simp] theorem opnd8_tdr (s : State) (src : Src8) : ((opnd8 src s).2).tdr = s.tdr := by
  cases src; exacts [rfl, State.touch_tdr ..]
@[simp] theorem opnd8_txPending (s : State) (src : Src8) : ((opnd8 src s).2).txPending = s.txPending := by
  cases src; exacts [rfl, State.touch_txPending ..]
@[simp] theorem opnd8_wait (s : State) (src : Src8) : ((opnd8 src s).2).wait = s.wait := by
  cases src; exacts [rfl, State.touch_wait ..]
@[simp] theorem opnd8_halted (s : State) (src : Src8) : ((opnd8 src s).2).halted = s.halted := by
  cases src; exacts [rfl, State.touch_halted ..]
@[simp] theorem opnd8_cycles (s : State) (src : Src8) : ((opnd8 src s).2).cycles = s.cycles := by
  cases src; exacts [rfl, State.touch_cycles ..]
@[simp] theorem opnd8_free (s : State) (src : Src8) : ((opnd8 src s).2).free = s.free := by
  cases src; exacts [rfl, State.touch_free ..]
@[simp] theorem opnd8_cfg (s : State) (src : Src8) : ((opnd8 src s).2).cfg = s.cfg := by
  cases src; exacts [rfl, State.touch_cfg ..]

@[simp] theorem opnd16_a (s : State) (src : Src16) : ((opnd16 src s).2).a = s.a := by
  cases src; exacts [rfl, memRead16_a ..]
@[simp] theorem opnd16_b (s : State) (src : Src16) : ((opnd16 src s).2).b = s.b := by
  cases src; exacts [rfl, memRead16_b ..]
@[simp] theorem opnd16_x (s : State) (src : Src16) : ((opnd16 src s).2).x = s.x := by
  cases src; exacts [rfl, memRead16_x ..]
@[simp] theorem opnd16_sp (s : State) (src : Src16) : ((opnd16 src s).2).sp = s.sp := by
  cases src; exacts [rfl, memRead16_sp ..]
@[simp] theorem opnd16_pc (s : State) (src : Src16) : ((opnd16 src s).2).pc = s.pc := by
  cases src; exacts [rfl, memRead16_pc ..]
@[simp] theorem opnd16_ccr (s : State) (src : Src16) : ((opnd16 src s).2).ccr = s.ccr := by
  cases src; exacts [rfl, memRead16_ccr ..]
@[simp] theorem opnd16_mem (s : State) (src : Src16) : ((opnd16 src s).2).mem = s.mem := by
  cases src; exacts [rfl, memRead16_mem ..]
@[simp] theorem opnd16_frc (s : State) (src : Src16) : ((opnd16 src s).2).frc = s.frc := by
  cases src; exacts [rfl, memRead16_frc ..]
@[simp] theorem opnd16_ocr (s : State) (src : Src16) : ((opnd16 src s).2).ocr = s.ocr := by
  cases src; exacts [rfl, memRead16_ocr ..]
@[simp] theorem opnd16_rdr (s : State) (src : Src16) : ((opnd16 src s).2).rdr = s.rdr := by
  cases src; exacts [rfl, memRead16_rdr ..]
@[simp] theorem opnd16_tdr (s : State) (src : Src16) : ((opnd16 src s).2).tdr = s.tdr := by
  cases src; exacts [rfl, memRead16_tdr ..]
@[simp] theorem opnd16_txPending (s : State) (src : Src16) : ((opnd16 src s).2).txPending = s.txPending := by
  cases src; exacts [rfl, memRead16_txPending ..]
@[simp] theorem opnd16_wait (s : State) (src : Src16) : ((opnd16 src s).2).wait = s.wait := by
  cases src; exacts [rfl, memRead16_wait ..]
@[simp] theorem opnd16_halted (s : State) (src : Src16) : ((opnd16 src s).2).halted = s.halted := by
  cases src; exacts [rfl, memRead16_halted ..]
@[simp] theorem opnd16_cycles (s : State) (src : Src16) : ((opnd16 src s).2).cycles = s.cycles := by
  cases src; exacts [rfl, memRead16_cycles ..]
@[simp] theorem opnd16_free (s : State) (src : Src16) : ((opnd16 src s).2).free = s.free := by
  cases src; exacts [rfl, memRead16_free ..]
@[simp] theorem opnd16_cfg (s : State) (src : Src16) : ((opnd16 src s).2).cfg = s.cfg := by
  cases src; exacts [rfl, memRead16_cfg ..]

/-! ### Fetching (R92) -/

@[simp] theorem fetch8_a (s : State) : ((fetch8 s).2).a = s.a := State.touch_a ..
@[simp] theorem fetch8_b (s : State) : ((fetch8 s).2).b = s.b := State.touch_b ..
@[simp] theorem fetch8_x (s : State) : ((fetch8 s).2).x = s.x := State.touch_x ..
@[simp] theorem fetch8_sp (s : State) : ((fetch8 s).2).sp = s.sp := State.touch_sp ..
@[simp] theorem fetch8_ccr (s : State) : ((fetch8 s).2).ccr = s.ccr := State.touch_ccr ..
@[simp] theorem fetch8_mem (s : State) : ((fetch8 s).2).mem = s.mem := State.touch_mem ..
@[simp] theorem fetch8_frc (s : State) : ((fetch8 s).2).frc = s.frc := State.touch_frc ..
@[simp] theorem fetch8_ocr (s : State) : ((fetch8 s).2).ocr = s.ocr := State.touch_ocr ..
@[simp] theorem fetch8_rdr (s : State) : ((fetch8 s).2).rdr = s.rdr := State.touch_rdr ..
@[simp] theorem fetch8_tdr (s : State) : ((fetch8 s).2).tdr = s.tdr := State.touch_tdr ..
@[simp] theorem fetch8_txPending (s : State) : ((fetch8 s).2).txPending = s.txPending := State.touch_txPending ..
@[simp] theorem fetch8_wait (s : State) : ((fetch8 s).2).wait = s.wait := State.touch_wait ..
@[simp] theorem fetch8_halted (s : State) : ((fetch8 s).2).halted = s.halted := State.touch_halted ..
@[simp] theorem fetch8_cycles (s : State) : ((fetch8 s).2).cycles = s.cycles := State.touch_cycles ..
@[simp] theorem fetch8_free (s : State) : ((fetch8 s).2).free = s.free := State.touch_free ..
@[simp] theorem fetch8_cfg (s : State) : ((fetch8 s).2).cfg = s.cfg := State.touch_cfg ..

@[simp] theorem fetch8_pc (s : State) : (fetch8 s).2.pc = s.pc + 1 := congrArg (· + 1) (State.touch_pc ..)

/-! ### Entry (R421) -/

@[simp] theorem vectorTo_a (s : State) (v : Word) : (vectorTo v s).a = s.a := memRead16_a ..
@[simp] theorem vectorTo_b (s : State) (v : Word) : (vectorTo v s).b = s.b := memRead16_b ..
@[simp] theorem vectorTo_x (s : State) (v : Word) : (vectorTo v s).x = s.x := memRead16_x ..
@[simp] theorem vectorTo_sp (s : State) (v : Word) : (vectorTo v s).sp = s.sp := memRead16_sp ..
@[simp] theorem vectorTo_mem (s : State) (v : Word) : (vectorTo v s).mem = s.mem := memRead16_mem ..
@[simp] theorem vectorTo_frc (s : State) (v : Word) : (vectorTo v s).frc = s.frc := memRead16_frc ..
@[simp] theorem vectorTo_ocr (s : State) (v : Word) : (vectorTo v s).ocr = s.ocr := memRead16_ocr ..
@[simp] theorem vectorTo_rdr (s : State) (v : Word) : (vectorTo v s).rdr = s.rdr := memRead16_rdr ..
@[simp] theorem vectorTo_tdr (s : State) (v : Word) : (vectorTo v s).tdr = s.tdr := memRead16_tdr ..
@[simp] theorem vectorTo_txPending (s : State) (v : Word) : (vectorTo v s).txPending = s.txPending := memRead16_txPending ..
@[simp] theorem vectorTo_wait (s : State) (v : Word) : (vectorTo v s).wait = s.wait := memRead16_wait ..
@[simp] theorem vectorTo_halted (s : State) (v : Word) : (vectorTo v s).halted = s.halted := memRead16_halted ..
@[simp] theorem vectorTo_cycles (s : State) (v : Word) : (vectorTo v s).cycles = s.cycles := memRead16_cycles ..
@[simp] theorem vectorTo_free (s : State) (v : Word) : (vectorTo v s).free = s.free := memRead16_free ..
@[simp] theorem vectorTo_cfg (s : State) (v : Word) : (vectorTo v s).cfg = s.cfg := memRead16_cfg ..

@[simp] theorem vectorTo_ccr (s : State) (v : Word) : (vectorTo v s).ccr = { s.ccr with i := true } :=
  memRead16_ccr ..

@[simp] theorem takeException_a (s : State) (v : Word) : (takeException v s).a = s.a := (vectorTo_a ..).trans (stackAll_a s)
@[simp] theorem takeException_b (s : State) (v : Word) : (takeException v s).b = s.b := (vectorTo_b ..).trans (stackAll_b s)
@[simp] theorem takeException_x (s : State) (v : Word) : (takeException v s).x = s.x := (vectorTo_x ..).trans (stackAll_x s)
@[simp] theorem takeException_rdr (s : State) (v : Word) : (takeException v s).rdr = s.rdr := (vectorTo_rdr ..).trans (stackAll_rdr s)
@[simp] theorem takeException_wait (s : State) (v : Word) : (takeException v s).wait = s.wait := (vectorTo_wait ..).trans (stackAll_wait s)
@[simp] theorem takeException_halted (s : State) (v : Word) : (takeException v s).halted = s.halted := (vectorTo_halted ..).trans (stackAll_halted s)
@[simp] theorem takeException_cycles (s : State) (v : Word) : (takeException v s).cycles = s.cycles := (vectorTo_cycles ..).trans (stackAll_cycles s)
@[simp] theorem takeException_free (s : State) (v : Word) : (takeException v s).free = s.free := (vectorTo_free ..).trans (stackAll_free s)
@[simp] theorem takeException_cfg (s : State) (v : Word) : (takeException v s).cfg = s.cfg := (vectorTo_cfg ..).trans (stackAll_cfg s)

@[simp] theorem takeException_ccr (s : State) (v : Word) : (takeException v s).ccr = { s.ccr with i := true } := by
  rw [takeException, vectorTo_ccr, stackAll_ccr]
@[simp] theorem takeException_sp (s : State) (v : Word) : (takeException v s).sp = s.sp - 7 := by
  rw [takeException, vectorTo_sp, stackAll_sp]

/-! ### The timer and the cycle counter (R128, R430) -/

@[simp] theorem timerAdvance_a (s : State) (n : Nat) : (timerAdvance n s).a = s.a := rfl
@[simp] theorem timerAdvance_b (s : State) (n : Nat) : (timerAdvance n s).b = s.b := rfl
@[simp] theorem timerAdvance_x (s : State) (n : Nat) : (timerAdvance n s).x = s.x := rfl
@[simp] theorem timerAdvance_sp (s : State) (n : Nat) : (timerAdvance n s).sp = s.sp := rfl
@[simp] theorem timerAdvance_pc (s : State) (n : Nat) : (timerAdvance n s).pc = s.pc := rfl
@[simp] theorem timerAdvance_ccr (s : State) (n : Nat) : (timerAdvance n s).ccr = s.ccr := rfl
@[simp] theorem timerAdvance_mem (s : State) (n : Nat) : (timerAdvance n s).mem = s.mem := rfl
@[simp] theorem timerAdvance_ocr (s : State) (n : Nat) : (timerAdvance n s).ocr = s.ocr := rfl
@[simp] theorem timerAdvance_trcsr (s : State) (n : Nat) : (timerAdvance n s).trcsr = s.trcsr := rfl
@[simp] theorem timerAdvance_rdr (s : State) (n : Nat) : (timerAdvance n s).rdr = s.rdr := rfl
@[simp] theorem timerAdvance_tdr (s : State) (n : Nat) : (timerAdvance n s).tdr = s.tdr := rfl
@[simp] theorem timerAdvance_txPending (s : State) (n : Nat) : (timerAdvance n s).txPending = s.txPending := rfl
@[simp] theorem timerAdvance_ocArmed (s : State) (n : Nat) : (timerAdvance n s).ocArmed = s.ocArmed := rfl
@[simp] theorem timerAdvance_tofArmed (s : State) (n : Nat) : (timerAdvance n s).tofArmed = s.tofArmed := rfl
@[simp] theorem timerAdvance_wait (s : State) (n : Nat) : (timerAdvance n s).wait = s.wait := rfl
@[simp] theorem timerAdvance_halted (s : State) (n : Nat) : (timerAdvance n s).halted = s.halted := rfl
@[simp] theorem timerAdvance_cycles (s : State) (n : Nat) : (timerAdvance n s).cycles = s.cycles := rfl
@[simp] theorem timerAdvance_free (s : State) (n : Nat) : (timerAdvance n s).free = s.free := rfl
@[simp] theorem timerAdvance_cfg (s : State) (n : Nat) : (timerAdvance n s).cfg = s.cfg := rfl

@[simp] theorem State.advance_a (s : State) (n : Nat) : (s.advance n).a = s.a := rfl
@[simp] theorem State.advance_b (s : State) (n : Nat) : (s.advance n).b = s.b := rfl
@[simp] theorem State.advance_x (s : State) (n : Nat) : (s.advance n).x = s.x := rfl
@[simp] theorem State.advance_sp (s : State) (n : Nat) : (s.advance n).sp = s.sp := rfl
@[simp] theorem State.advance_pc (s : State) (n : Nat) : (s.advance n).pc = s.pc := rfl
@[simp] theorem State.advance_ccr (s : State) (n : Nat) : (s.advance n).ccr = s.ccr := rfl
@[simp] theorem State.advance_mem (s : State) (n : Nat) : (s.advance n).mem = s.mem := rfl
@[simp] theorem State.advance_ocr (s : State) (n : Nat) : (s.advance n).ocr = s.ocr := rfl
@[simp] theorem State.advance_trcsr (s : State) (n : Nat) : (s.advance n).trcsr = s.trcsr := rfl
@[simp] theorem State.advance_rdr (s : State) (n : Nat) : (s.advance n).rdr = s.rdr := rfl
@[simp] theorem State.advance_tdr (s : State) (n : Nat) : (s.advance n).tdr = s.tdr := rfl
@[simp] theorem State.advance_txPending (s : State) (n : Nat) : (s.advance n).txPending = s.txPending := rfl
@[simp] theorem State.advance_ocArmed (s : State) (n : Nat) : (s.advance n).ocArmed = s.ocArmed := rfl
@[simp] theorem State.advance_tofArmed (s : State) (n : Nat) : (s.advance n).tofArmed = s.tofArmed := rfl
@[simp] theorem State.advance_wait (s : State) (n : Nat) : (s.advance n).wait = s.wait := rfl
@[simp] theorem State.advance_halted (s : State) (n : Nat) : (s.advance n).halted = s.halted := rfl
@[simp] theorem State.advance_free (s : State) (n : Nat) : (s.advance n).free = s.free := rfl
@[simp] theorem State.advance_cfg (s : State) (n : Nat) : (s.advance n).cfg = s.cfg := rfl

@[simp] theorem State.advance_cycles (s : State) (n : Nat) : (s.advance n).cycles = s.cycles + n := rfl

/-- The counter grows by the cost, modulo 65536 (R129). -/
@[simp] theorem State.advance_frc (s : State) (n : Nat) : (s.advance n).frc = s.frc + BitVec.ofNat 16 n := by
  simp [State.advance, timerAdvance, BitVec.ofNat_add]

end Sys2Proof.Machine
end

