-- ==== Sys2Proof/Laws/Ops.lean ====
section
/-! SUPPORT. What each shared operation can do, said once: reads and writes of one byte, the operands, the stack, the entry
into an exception and the return from one. Proofs about instructions cite these and do not unfold the operations. -/
namespace Sys2Proof.Machine

/-! ### The four "is the same" relations -/

theorem SameRegisters.refl (s : State) : SameRegisters s s := ⟨rfl, rfl, rfl, rfl, rfl, rfl⟩
theorem SamePeripherals.refl (s : State) : SamePeripherals s s := ⟨rfl, rfl, rfl, rfl, rfl, rfl, rfl, rfl, rfl⟩
theorem SameEngine.refl (s : State) : SameEngine s s := ⟨rfl, rfl, rfl, rfl, rfl⟩
theorem SameMemory.refl (s : State) : SameMemory s s := fun _ => rfl

theorem SamePeripherals.symm {s t : State} (h : SamePeripherals s t) : SamePeripherals t s := by
  simp only [SamePeripherals] at *; simp [h]

theorem SamePeripherals.trans {s t u : State} (h : SamePeripherals s t) (h' : SamePeripherals t u) :
    SamePeripherals s u := by
  simp only [SamePeripherals] at *; simp [h, h']

/-! ### One byte read -/

/-- A read of a plain byte returns it (R61). -/
theorem State.peek_plain {s : State} {p : Word} (h : Plain s p) : s.peek p = s.mem.read p.toNat := by
  simp [State.peek, show regAt s.cfg p = none from h]

/-- A read of a plain byte has no side effect (R72). -/
theorem State.touch_plain {s : State} {p : Word} (h : Plain s p) : s.touch p = s := by
  simp [State.touch, show regAt s.cfg p = none from h]

/-- Everything the side effect of a read can be. -/
theorem State.touch_cases (s : State) (p : Word) :
    s.touch p = s ∨ (regAt s.cfg p = some .tcsr ∧ s.touch p = s.armLatches) ∨
      (regAt s.cfg p = some .frcHi ∧ s.touch p = s.clearTof) ∨
      (regAt s.cfg p = some .rdr ∧ s.touch p = s.clearReceive) := by
  unfold State.touch
  split <;> simp [*]

theorem State.touch_tcsr {s : State} {p : Word} (h : regAt s.cfg p = some .tcsr) : s.touch p = s.armLatches := by
  rw [State.touch, h]

theorem State.touch_frcHi {s : State} {p : Word} (h : regAt s.cfg p = some .frcHi) : s.touch p = s.clearTof := by
  rw [State.touch, h]

theorem State.touch_rdr_address {s : State} {p : Word} (h : regAt s.cfg p = some .rdr) : s.touch p = s.clearReceive := by
  rw [State.touch, h]

/-- What a read returns depends on the parameters, the peripherals and the one byte alone. -/
theorem State.peek_congr {s t : State} {p : Word} (hc : t.cfg = s.cfg) (hp : SamePeripherals s t)
    (hm : t.mem.read p.toNat = s.mem.read p.toNat) : t.peek p = s.peek p := by
  obtain ⟨h1, h2, h3, h4, h5, h6, -⟩ := hp
  unfold State.peek
  rw [hc, h1, h2, h3, h4, h5, h6, hm]

/-- Neither does a side effect on the peripherals. -/
theorem State.touch_congr {s t : State} {p : Word} (hc : t.cfg = s.cfg) (hp : SamePeripherals s t) :
    SamePeripherals (s.touch p) (t.touch p) := by
  obtain ⟨h1, h2, h3, h4, h5, h6, h7, h8, h9⟩ := hp
  unfold State.touch
  rw [hc]
  split <;> simp [SamePeripherals, State.armLatches, State.clearTof, State.clearReceive, State.ocf, State.tof, *]

/-! ### One byte written -/

/-- A write of a plain byte changes the byte array alone (R63). -/
theorem memWrite_plain {s : State} {p : Word} (h : Plain s p) (v : Byte) :
    memWrite p v s = { s with mem := s.mem.write p.toNat v } := by
  simp [memWrite, show regAt s.cfg p = none from h]

/-! A write of each peripheral register (R63). -/

theorem memWrite_at_tcsr {s : State} {p : Word} (h : regAt s.cfg p = some .tcsr) (v : Byte) :
    memWrite p v s = { s with tcsr := statusWrite s.tcsr v } := by
  rw [memWrite, h]

theorem memWrite_at_frcHi {s : State} {p : Word} (h : regAt s.cfg p = some .frcHi) (v : Byte) :
    memWrite p v s = { s with frc := cat v (lo s.frc) } := by
  rw [memWrite, h]

theorem memWrite_at_frcLo {s : State} {p : Word} (h : regAt s.cfg p = some .frcLo) (v : Byte) :
    memWrite p v s = { s with frc := cat (hi s.frc) v } := by
  rw [memWrite, h]

theorem memWrite_at_ocrHi {s : State} {p : Word} (h : regAt s.cfg p = some .ocrHi) (v : Byte) :
    memWrite p v s = ({ s with ocr := cat v (lo s.ocr) } : State).clearOcf := by
  rw [memWrite, h]

theorem memWrite_at_ocrLo {s : State} {p : Word} (h : regAt s.cfg p = some .ocrLo) (v : Byte) :
    memWrite p v s = ({ s with ocr := cat (hi s.ocr) v } : State).clearOcf := by
  rw [memWrite, h]

theorem memWrite_at_trcsr {s : State} {p : Word} (h : regAt s.cfg p = some .trcsr) (v : Byte) :
    memWrite p v s = { s with trcsr := statusWrite s.trcsr v } := by
  rw [memWrite, h]

theorem memWrite_at_rdr {s : State} {p : Word} (h : regAt s.cfg p = some .rdr) (v : Byte) :
    memWrite p v s = s := by
  rw [memWrite, h]

theorem memWrite_at_tdr {s : State} {p : Word} (h : regAt s.cfg p = some .tdr) (v : Byte) :
    memWrite p v s = { s with tdr := v, trcsr := s.trcsr &&& 0xDF#8, txPending := true } := by
  rw [memWrite, h]

/-- A write at a peripheral register's address does not reach the byte array (R63). -/
theorem memWrite_mem_of_register {s : State} {p : Word} {r : PeriphReg} (h : regAt s.cfg p = some r) (v : Byte) :
    (memWrite p v s).mem = s.mem := by
  unfold memWrite
  rw [h]
  cases r <;> rfl

/-- What a write leaves in the byte array. -/
theorem memWrite_mem (p : Word) (v : Byte) (s : State) :
    (memWrite p v s).mem = s.mem ∨ Plain s p ∧ (memWrite p v s).mem = s.mem.write p.toNat v := by
  cases h : regAt s.cfg p with
  | none => exact .inr ⟨h, by rw [memWrite_plain h]⟩
  | some r => exact .inl (memWrite_mem_of_register h v)

/-- Every byte but the one written reads as before, whatever answers at the address. -/
theorem memWrite_read_ne (p : Word) (v : Byte) (s : State) {k : Nat} (hk : Plain s p → k ≠ p.toNat) :
    (memWrite p v s).mem.read k = s.mem.read k := by
  rcases memWrite_mem p v s with h | ⟨hp, h⟩
  · rw [h]
  · rw [h, Memory.read_write_ne _ _ _ _ (hk hp)]

/-- The byte written reads as written. -/
theorem memWrite_read_self {s : State} {p : Word} (hw : s.mem.wf = true) (h : Plain s p) (v : Byte) :
    (memWrite p v s).mem.read p.toNat = v := by
  rw [memWrite_plain h]
  exact (Memory.read_write _ _ _ _ hw).trans (if_pos rfl)

/-- Every write keeps the canonical form of the byte array. -/
theorem memWrite_wf {s : State} (hw : s.mem.wf = true) (p : Word) (v : Byte) : (memWrite p v s).mem.wf = true := by
  rcases memWrite_mem p v s with h | ⟨-, h⟩ <;> rw [h]
  · exact hw
  · exact Memory.wf_write _ _ _ hw p.isLt

/-- A write at a plain address leaves the peripherals alone. -/
theorem memWrite_samePeripherals {s : State} {p : Word} (h : Plain s p) (v : Byte) :
    SamePeripherals s (memWrite p v s) := by
  rw [memWrite_plain h]; exact SamePeripherals.refl s

/-- What a write does to the peripherals depends on the parameters and the peripherals alone. -/
theorem memWrite_congr {s t : State} (hc : t.cfg = s.cfg) (hp : SamePeripherals s t) (p : Word) (v : Byte) :
    SamePeripherals (memWrite p v s) (memWrite p v t) := by
  obtain ⟨h1, h2, h3, h4, h5, h6, h7, h8, h9⟩ := hp
  unfold memWrite
  rw [hc]
  split <;> simp [SamePeripherals, State.clearOcf, *]

/-- And what it does to the byte array, on the parameters and the byte array alone. -/
theorem memWrite_mem_congr {s t : State} (hc : t.cfg = s.cfg) (hm : t.mem = s.mem) (p : Word) (v : Byte) :
    (memWrite p v t).mem = (memWrite p v s).mem := by
  cases h : regAt s.cfg p with
  | none => rw [memWrite_plain h, memWrite_plain (s := t) (by rw [Plain, hc, h]), hm]
  | some r => rw [memWrite_mem_of_register h, memWrite_mem_of_register (by rw [hc, h]), hm]

/-- A write commutes with setting SP. -/
theorem memWrite_setSp (p : Word) (v : Byte) (s : State) (w : Word) :
    memWrite p v { s with sp := w } = { memWrite p v s with sp := w } := by
  unfold memWrite
  cases h : regAt s.cfg p with
  | none => rfl
  | some r => cases r <;> rfl

/-- A write commutes with setting the flags. -/
theorem memWrite_setCcr (p : Word) (v : Byte) (s : State) (f : Ccr) :
    memWrite p v { s with ccr := f } = { memWrite p v s with ccr := f } := by
  unfold memWrite
  cases h : regAt s.cfg p with
  | none => rfl
  | some r => cases r <;> rfl

/-! ### Several bytes written -/

@[simp] theorem writeAll_nil (s : State) : writeAll [] s = s := rfl
@[simp] theorem writeAll_cons (p : Word × Byte) (w : List (Word × Byte)) (s : State) :
    writeAll (p :: w) s = writeAll w (memWrite p.1 p.2 s) := rfl

/-- Program writes reach no register but the peripherals', and not the engine. -/
theorem writeAll_frame (w : List (Word × Byte)) (s : State) :
    SameRegisters s (writeAll w s) ∧ SameEngine s (writeAll w s) := by
  induction w generalizing s with
  | nil => exact ⟨SameRegisters.refl s, SameEngine.refl s⟩
  | cons p w ih => simpa [SameRegisters, SameEngine] using ih (memWrite p.1 p.2 s)

@[simp] theorem writeAll_cfg (w : List (Word × Byte)) (s : State) : (writeAll w s).cfg = s.cfg :=
  (writeAll_frame w s).2.2.2.2.1

/-- Every byte outside the addresses written reads as before. -/
theorem writeAll_read_ne (w : List (Word × Byte)) (s : State) {k : Nat}
    (hk : ∀ p ∈ w, Plain s p.1 → k ≠ p.1.toNat) : (writeAll w s).mem.read k = s.mem.read k := by
  induction w generalizing s with
  | nil => rfl
  | cons p w ih =>
    rw [writeAll_cons, ih (memWrite p.1 p.2 s) fun q hq => by simpa [Plain] using hk q (by simp [hq]),
      memWrite_read_ne p.1 p.2 s (hk p (by simp))]

theorem writeAll_wf (w : List (Word × Byte)) {s : State} (hw : s.mem.wf = true) : (writeAll w s).mem.wf = true := by
  induction w generalizing s with
  | nil => exact hw
  | cons p w ih => exact ih (memWrite_wf hw p.1 p.2)

/-- Bytes written at different plain addresses read as written. -/
theorem writeAll_read {w : List (Word × Byte)} {s : State} (hw : s.mem.wf = true) (hn : (w.map Prod.fst).Nodup)
    {p : Word × Byte} (hp : p ∈ w) (h : Plain s p.1) : (writeAll w s).mem.read p.1.toNat = p.2 := by
  induction w generalizing s with
  | nil => simp at hp
  | cons q w ih =>
    rw [List.map_cons, List.nodup_cons] at hn
    rcases List.mem_cons.1 hp with rfl | hp
    · rw [writeAll_cons, writeAll_read_ne w _ fun r hr _ hk => ?_, memWrite_read_self hw h]
      exact hn.1 (BitVec.eq_of_toNat_eq hk ▸ List.mem_map_of_mem hr)
    · exact ih (memWrite_wf hw q.1 q.2) hn.2 hp (by simpa [Plain] using h)

/-- Bytes written at plain addresses leave the peripherals alone. -/
theorem writeAll_samePeripherals (w : List (Word × Byte)) (s : State) (h : ∀ p ∈ w, Plain s p.1) :
    SamePeripherals s (writeAll w s) := by
  induction w generalizing s with
  | nil => exact SamePeripherals.refl s
  | cons p w ih =>
    exact (memWrite_samePeripherals (h p (by simp)) p.2).trans
      (ih _ fun q hq => by simpa [Plain] using h q (by simp [hq]))

/-- What the writes do to the peripherals depends on the parameters and the peripherals alone. -/
theorem writeAll_congr (w : List (Word × Byte)) {s t : State} (hc : t.cfg = s.cfg) (hp : SamePeripherals s t) :
    SamePeripherals (writeAll w s) (writeAll w t) := by
  induction w generalizing s t with
  | nil => exact hp
  | cons p w ih => exact ih (by simpa using hc) (memWrite_congr hc hp ..)

/-- And what they do to the byte array, on the parameters and the byte array alone. -/
theorem writeAll_mem_congr (w : List (Word × Byte)) {s t : State} (hc : t.cfg = s.cfg) (hm : t.mem = s.mem) :
    (writeAll w t).mem = (writeAll w s).mem := by
  induction w generalizing s t with
  | nil => exact hm
  | cons p w ih => exact ih (by simpa using hc) (memWrite_mem_congr hc hm ..)

/-! ### What accesses leave of the peripherals -/

/-- Plain addresses miss every register. -/
theorem MissesRegisters.of_plain {s : State} {l : List Word} (h : ∀ p ∈ l, Plain s p) (rs : List PeriphReg) :
    MissesRegisters s.cfg l rs := fun p hp r _ e => by rw [h p hp] at e; cases e

/-- The peripherals untouched are untouched outside any addresses. -/
theorem SamePeripherals.outside {s t : State} (h : SamePeripherals s t) (l : List Word) :
    SamePeripheralsOutside l s t := by
  obtain ⟨h1, h2, h3, h4, h5, h6, h7, -, -⟩ := h
  exact ⟨h5, fun _ => h2, fun _ => ⟨h3, by rw [State.ocf, State.ocf, h1]⟩,
    fun _ => ⟨h6, h7, by rw [State.tdre, State.tdre, h4]⟩, fun _ => by rw [h1], fun _ => by rw [h4]⟩

theorem SamePeripheralsOutside.trans {l : List Word} {s t u : State} (hc : t.cfg = s.cfg)
    (h : SamePeripheralsOutside l s t) (h' : SamePeripheralsOutside l t u) : SamePeripheralsOutside l s u := by
  rw [SamePeripheralsOutside, hc] at h'
  obtain ⟨a1, a2, a3, a4, a5, a6⟩ := h
  obtain ⟨b1, b2, b3, b4, b5, b6⟩ := h'
  exact ⟨b1.trans a1, fun m => (b2 m).trans (a2 m), fun m => ⟨(b3 m).1.trans (a3 m).1, (b3 m).2.trans (a3 m).2⟩,
    fun m => ⟨(b4 m).1.trans (a4 m).1, (b4 m).2.1.trans (a4 m).2.1, (b4 m).2.2.trans (a4 m).2.2⟩,
    fun m => (b5 m).trans (a5 m), fun m => (b6 m).trans (a6 m)⟩

/-- A program read leaves all of them. -/
theorem State.touch_outside (s : State) (p : Word) (l : List Word) : SamePeripheralsOutside l s (s.touch p) := by
  have h20 : ∀ v : Byte, v &&& 0xDF#8 &&& 0x1F#8 = v &&& 0x1F#8 := by decide
  have hC0 : ∀ v : Byte, v &&& 0x3F#8 &&& 0x1F#8 = v &&& 0x1F#8 := by decide
  rcases State.touch_cases s p with h | h | h | h
  · rw [h]; exact (SamePeripherals.refl s).outside l
  · rw [State.touch_tcsr h.1]; exact ⟨rfl, fun _ => rfl, fun _ => ⟨rfl, rfl⟩, fun _ => ⟨rfl, rfl, rfl⟩, fun _ => rfl, fun _ => rfl⟩
  · rw [State.touch_frcHi h.1, State.clearTof]
    cases s.tofArmed
    · exact ⟨rfl, fun _ => rfl, fun _ => ⟨rfl, rfl⟩, fun _ => ⟨rfl, rfl, rfl⟩, fun _ => rfl, fun _ => rfl⟩
    · exact ⟨rfl, fun _ => rfl, fun _ => ⟨rfl, (mask_flags s.tcsr).1.2.1⟩, fun _ => ⟨rfl, rfl, rfl⟩, fun _ => h20 s.tcsr,
        fun _ => rfl⟩
  · rw [State.touch_rdr_address h.1]
    exact ⟨rfl, fun _ => rfl, fun _ => ⟨rfl, rfl⟩, fun _ => ⟨rfl, rfl, (mask_flags s.trcsr).2.2.2.2⟩, fun _ => rfl,
      fun _ => hC0 s.trcsr⟩

/-- A program write leaves all whose address it is not. -/
theorem memWrite_outside (p : Word) (v : Byte) (s : State) {l : List Word} (hl : p ∈ l) :
    SamePeripheralsOutside l s (memWrite p v s) := by
  have h40 : ∀ v : Byte, v &&& 0xBF#8 &&& 0x1F#8 = v &&& 0x1F#8 := by decide
  have h20 : ∀ v : Byte, v &&& 0xDF#8 &&& 0x1F#8 = v &&& 0x1F#8 := by decide
  have out : ∀ {r : PeriphReg} {rs : List PeriphReg} {P : Prop}, regAt s.cfg p = some r → r ∈ rs →
      MissesRegisters s.cfg l rs → P := fun hr hm m => absurd hr (m p hl _ hm)
  cases h : regAt s.cfg p with
  | none => exact (memWrite_samePeripherals h v).outside l
  | some r =>
    cases r with
    | tcsr =>
      rw [memWrite_at_tcsr h]
      exact ⟨rfl, fun _ => rfl, fun _ => ⟨rfl, (statusWrite_flags s.tcsr v).2.1⟩, fun _ => ⟨rfl, rfl, rfl⟩,
        out h (by simp), fun _ => rfl⟩
    | frcHi =>
      rw [memWrite_at_frcHi h]
      exact ⟨rfl, out h (by simp), fun _ => ⟨rfl, rfl⟩, fun _ => ⟨rfl, rfl, rfl⟩, fun _ => rfl, fun _ => rfl⟩
    | frcLo =>
      rw [memWrite_at_frcLo h]
      exact ⟨rfl, out h (by simp), fun _ => ⟨rfl, rfl⟩, fun _ => ⟨rfl, rfl, rfl⟩, fun _ => rfl, fun _ => rfl⟩
    | ocrHi =>
      rw [memWrite_at_ocrHi h, State.clearOcf]
      refine ⟨rfl, fun _ => rfl, out h (by simp), fun _ => ⟨rfl, rfl, rfl⟩, fun _ => ?_, fun _ => rfl⟩
      simp only
      split
      · exact h40 s.tcsr
      · rfl
    | ocrLo =>
      rw [memWrite_at_ocrLo h, State.clearOcf]
      refine ⟨rfl, fun _ => rfl, out h (by simp), fun _ => ⟨rfl, rfl, rfl⟩, fun _ => ?_, fun _ => rfl⟩
      simp only
      split
      · exact h40 s.tcsr
      · rfl
    | trcsr =>
      rw [memWrite_at_trcsr h]
      exact ⟨rfl, fun _ => rfl, fun _ => ⟨rfl, rfl⟩, fun _ => ⟨rfl, rfl, (statusWrite_flags s.trcsr v).2.2⟩, fun _ => rfl,
        out h (by simp)⟩
    | rdr => rw [memWrite_at_rdr h]; exact (SamePeripherals.refl s).outside l
    | tdr =>
      rw [memWrite_at_tdr h]
      exact ⟨rfl, fun _ => rfl, fun _ => ⟨rfl, rfl⟩, out h (by simp), fun _ => rfl, fun _ => h20 s.trcsr⟩

/-- Several program writes leave all whose addresses they are not. -/
theorem writeAll_outside (w : List (Word × Byte)) (s : State) {l : List Word} (hl : ∀ p ∈ w, p.1 ∈ l) :
    SamePeripheralsOutside l s (writeAll w s) := by
  induction w generalizing s with
  | nil => exact (SamePeripherals.refl s).outside l
  | cons p w ih =>
    exact (memWrite_outside p.1 p.2 s (hl p (by simp))).trans (by simp) (ih _ fun q hq => hl q (by simp [hq]))

/-! ### Operands -/

theorem memRead16_eq (p : Word) (s : State) :
    memRead16 p s = (cat (s.peek p) ((s.touch p).peek (p + 1)), (s.touch p).touch (p + 1)) := rfl

/-- An 8-bit source is its value and the state after its read (R95). -/
theorem opnd8_eq (src : Src8) (s : State) : opnd8 src s = (srcValue8 src s, afterSrc8 src s) := by cases src <;> rfl

theorem opnd16_eq (src : Src16) (s : State) : opnd16 src s = (srcValue16 src s, afterSrc16 src s) := by cases src <;> rfl

/-- Reading an operand changes nothing but the peripherals (R72). -/
theorem afterSrc8_frame (src : Src8) (s : State) :
    SameRegisters s (afterSrc8 src s) ∧ SameEngine s (afterSrc8 src s) ∧ (afterSrc8 src s).mem = s.mem := by
  cases src <;> simp [afterSrc8, SameRegisters, SameEngine]

theorem afterSrc16_frame (src : Src16) (s : State) :
    SameRegisters s (afterSrc16 src s) ∧ SameEngine s (afterSrc16 src s) ∧ (afterSrc16 src s).mem = s.mem := by
  cases src <;> simp [afterSrc16, SameRegisters, SameEngine]

/-! ### The stack -/

theorem push8_eq (v : Byte) (s : State) : push8 v s = { memWrite s.sp v s with sp := s.sp - 1 } := by
  simp [push8]

/-- A push after some writes is one write more. -/
theorem push8_writeAll (v : Byte) (w : List (Word × Byte)) (s : State) (q : Word) :
    push8 v { writeAll w s with sp := q } = { writeAll (w ++ [(q, v)]) s with sp := q - 1 } := by
  rw [push8_eq, memWrite_setSp, writeAll, writeAll, List.foldl_append]
  rfl

theorem push16_writeAll (v : Word) (w : List (Word × Byte)) (s : State) (q : Word) :
    push16 v { writeAll w s with sp := q } =
      { writeAll (w ++ [(q, lo v), (q - 1, hi v)]) s with sp := q - 2 } := by
  rw [push16, push8_writeAll, push8_writeAll, List.append_assoc, BitVec.sub_sub]
  rfl

theorem push16_eq (v : Word) (s : State) :
    push16 v s = { writeAll [(s.sp, lo v), (s.sp - 1, hi v)] s with sp := s.sp - 2 } :=
  push16_writeAll v [] s s.sp

/-- A call is two writes (R322, R323). -/
theorem callTo_eq (target : Word) (s : State) :
    callTo target s = { writeAll [(s.sp, lo s.pc), (s.sp - 1, hi s.pc)] s with sp := s.sp - 2, pc := target } := by
  rw [callTo, push16_eq]

@[simp] theorem callTo_a (s : State) (target : Word) : (callTo target s).a = s.a := push16_a ..
@[simp] theorem callTo_b (s : State) (target : Word) : (callTo target s).b = s.b := push16_b ..
@[simp] theorem callTo_x (s : State) (target : Word) : (callTo target s).x = s.x := push16_x ..
@[simp] theorem callTo_ccr (s : State) (target : Word) : (callTo target s).ccr = s.ccr := push16_ccr ..
@[simp] theorem callTo_rdr (s : State) (target : Word) : (callTo target s).rdr = s.rdr := push16_rdr ..
@[simp] theorem callTo_tofArmed (s : State) (target : Word) : (callTo target s).tofArmed = s.tofArmed := push16_tofArmed ..
@[simp] theorem callTo_wait (s : State) (target : Word) : (callTo target s).wait = s.wait := push16_wait ..
@[simp] theorem callTo_halted (s : State) (target : Word) : (callTo target s).halted = s.halted := push16_halted ..
@[simp] theorem callTo_cycles (s : State) (target : Word) : (callTo target s).cycles = s.cycles := push16_cycles ..
@[simp] theorem callTo_free (s : State) (target : Word) : (callTo target s).free = s.free := push16_free ..
@[simp] theorem callTo_cfg (s : State) (target : Word) : (callTo target s).cfg = s.cfg := push16_cfg ..
@[simp] theorem callTo_pc (s : State) (target : Word) : (callTo target s).pc = target := rfl
@[simp] theorem callTo_sp (s : State) (target : Word) : (callTo target s).sp = s.sp - 2 := push16_sp ..

theorem pull8_eq (s : State) : pull8 s = (s.peek (s.sp + 1), { s.touch (s.sp + 1) with sp := s.sp + 1 }) := by
  unfold pull8 memRead State.peek State.touch
  cases h : regAt s.cfg (s.sp + 1) with
  | none => rfl
  | some r => cases r <;> rfl

/-- The stacking of an entry as seven writes (R420). -/
theorem stackAll_eq (s : State) : stackAll s = { writeAll (stackImage s) s with sp := s.sp - 7 } := by
  have h : push16 s.x (push16 s.pc s) =
      { writeAll [(s.sp, lo s.pc), (s.sp - 1, hi s.pc), (s.sp - 2, lo s.x), (s.sp - 3, hi s.x)] s with
        sp := s.sp - 4 } := by
    rw [push16_eq s.pc, push16_writeAll, BitVec.sub_sub, BitVec.sub_sub]
    rfl
  rw [stackAll, h, push8_writeAll, push8_writeAll, push8_writeAll, BitVec.sub_sub, BitVec.sub_sub, BitVec.sub_sub]
  rfl

/-- The seven addresses of an entry are different. -/
theorem stackImage_nodup (s : State) : ((stackImage s).map Prod.fst).Nodup := by
  simp only [stackImage, List.map_cons, List.map_nil, List.nodup_cons, List.mem_cons, List.not_mem_nil, or_false,
    not_or, List.nodup_nil, and_true, not_false_iff]
  refine ⟨⟨?_, ?_, ?_, ?_, ?_, ?_⟩, ⟨?_, ?_, ?_, ?_, ?_⟩, ⟨?_, ?_, ?_, ?_⟩, ⟨?_, ?_, ?_⟩, ⟨?_, ?_⟩, ?_⟩ <;> bv_omega

/-- A word read depends on the parameters, the byte array and the peripherals alone. -/
theorem memRead16_congr {s t : State} (p : Word) (hc : t.cfg = s.cfg) (hm : t.mem = s.mem) (hp : SamePeripherals s t) :
    (memRead16 p t).1 = (memRead16 p s).1 ∧ SamePeripherals (memRead16 p s).2 (memRead16 p t).2 := by
  have h := State.touch_congr (p := p) hc hp
  exact ⟨congrArg₂ cat (State.peek_congr hc hp (by rw [hm])) (State.peek_congr (by simpa using hc) h (by simp [memRead, hm])),
    State.touch_congr (by simpa using hc) h⟩

/-- The second half of an entry (R421). -/
theorem vectorTo_eq (v : Word) (s : State) :
    SameRegisters { s with pc := (memRead16 v s).1, ccr := { s.ccr with i := true } } (vectorTo v s) ∧
      SameEngine s (vectorTo v s) ∧ (vectorTo v s).mem = s.mem ∧
      SamePeripherals (memRead16 v s).2 (vectorTo v s) := by
  obtain ⟨h1, h2⟩ := memRead16_congr (s := s) (t := { s with ccr := { s.ccr with i := true } }) v rfl rfl
    (SamePeripherals.refl s)
  exact ⟨by simp only [SameRegisters, vectorTo_a, vectorTo_b, vectorTo_x, vectorTo_sp, vectorTo_ccr, and_true,
    true_and]; exact h1, by simp [SameEngine], by simp, h2⟩

/-- An entry as a whole (R421, R348): seven writes, then the word at the vector in the state they leave. -/
theorem takeException_eq (v : Word) (s : State) :
    SameRegisters { s with sp := s.sp - 7, pc := (memRead16 v (writeAll (stackImage s) s)).1,
                           ccr := { s.ccr with i := true } } (takeException v s) ∧
      SameEngine s (takeException v s) ∧ (takeException v s).mem = (writeAll (stackImage s) s).mem ∧
      SamePeripherals (memRead16 v (writeAll (stackImage s) s)).2 (takeException v s) := by
  have hc : (stackAll s).cfg = (writeAll (stackImage s) s).cfg := by simp
  have hm : (stackAll s).mem = (writeAll (stackImage s) s).mem := by rw [stackAll_eq]
  have hp : SamePeripherals (writeAll (stackImage s) s) (stackAll s) := by
    rw [stackAll_eq]; exact SamePeripherals.refl _
  obtain ⟨⟨-, -, -, -, h1, -⟩, -, h3, h4⟩ := vectorTo_eq v (stackAll s)
  obtain ⟨g1, g2⟩ := memRead16_congr v hc hm hp
  refine ⟨⟨by simp, by simp, by simp, by simp, ?_, by simp⟩, by simp [SameEngine], ?_, ?_⟩
  · exact h1.trans g1
  · rw [takeException, h3, hm]
  · exact SamePeripherals.trans g2 h4

/-- `t` is `u` as far as a memory access can tell: registers and engine may differ. -/
def SameForAccess (u t : State) : Prop := t.cfg = u.cfg ∧ t.mem = u.mem ∧ SamePeripherals u t

theorem SameForAccess.refl (s : State) : SameForAccess s s := ⟨rfl, rfl, SamePeripherals.refl s⟩

theorem SameForAccess.trans {s t u : State} (h : SameForAccess s t) (h' : SameForAccess t u) : SameForAccess s u :=
  ⟨h'.1.trans h.1, h'.2.1.trans h.2.1, h.2.2.trans h'.2.2⟩

/-- A pull reads what a plain read of that address in `u` would, with the same side effect. -/
theorem pull8_spec {u t : State} (h : SameForAccess u t) :
    (pull8 t).1 = u.peek (t.sp + 1) ∧ SameForAccess (u.touch (t.sp + 1)) (pull8 t).2 := by
  obtain ⟨hc, hm, hp⟩ := h
  have hp' : SamePeripherals (t.touch (t.sp + 1)) (pull8 t).2 := by rw [pull8_eq]; exact SamePeripherals.refl _
  exact ⟨by rw [pull8_eq]; exact State.peek_congr hc hp (by rw [hm]),
    by simpa using hc, by simpa using hm, (State.touch_congr hc hp).trans hp'⟩

theorem pull16_spec {u t : State} (h : SameForAccess u t) :
    (pull16 t).1 = (memRead16 (t.sp + 1) u).1 ∧ SameForAccess (memRead16 (t.sp + 1) u).2 (pull16 t).2 := by
  obtain ⟨h1, h2⟩ := pull8_spec h
  obtain ⟨g1, g2⟩ := pull8_spec h2
  rw [pull8_sp] at g1 g2
  exact ⟨congrArg₂ cat h1 g1, g2⟩

@[simp] theorem returnFromException_wait (s : State) : (returnFromException s).wait = s.wait := by
  simp [returnFromException]
@[simp] theorem returnFromException_halted (s : State) : (returnFromException s).halted = s.halted := by
  simp [returnFromException]
@[simp] theorem returnFromException_cycles (s : State) : (returnFromException s).cycles = s.cycles := by
  simp [returnFromException]
@[simp] theorem returnFromException_free (s : State) : (returnFromException s).free = s.free := by
  simp [returnFromException]
@[simp] theorem returnFromException_cfg (s : State) : (returnFromException s).cfg = s.cfg := by
  simp [returnFromException]
@[simp] theorem returnFromException_mem (s : State) : (returnFromException s).mem = s.mem := by
  simp [returnFromException]
@[simp] theorem returnFromException_frc (s : State) : (returnFromException s).frc = s.frc := by
  simp [returnFromException]
@[simp] theorem returnFromException_ocr (s : State) : (returnFromException s).ocr = s.ocr := by
  simp [returnFromException]
@[simp] theorem returnFromException_tdr (s : State) : (returnFromException s).tdr = s.tdr := by
  simp [returnFromException]
@[simp] theorem returnFromException_txPending (s : State) : (returnFromException s).txPending = s.txPending := by
  simp [returnFromException]
@[simp] theorem returnFromException_rdr (s : State) : (returnFromException s).rdr = s.rdr := by
  simp [returnFromException]
@[simp] theorem returnFromException_sp (s : State) : (returnFromException s).sp = s.sp + 7 := by
  simp [returnFromException, BitVec.add_assoc]

/-- The registers after a return from an exception, by the pulls of R349 in their order: the states between them are
`t1` to `t4`. -/
theorem returnFromException_chain {s t1 t2 t3 t4 : State} (h1 : t1 = { (pull8 s).2 with ccr := Ccr.ofByte (pull8 s).1 })
    (h2 : t2 = { (pull8 t1).2 with b := (pull8 t1).1 }) (h3 : t3 = { (pull8 t2).2 with a := (pull8 t2).1 })
    (h4 : t4 = { (pull16 t3).2 with x := (pull16 t3).1 }) :
    SameRegisters { s with sp := s.sp + 7, ccr := Ccr.ofByte (pull8 s).1, b := (pull8 t1).1, a := (pull8 t2).1,
                           x := (pull16 t3).1, pc := (pull16 t4).1 } (returnFromException s) ∧
      SameForAccess (pull16 t4).2 (returnFromException s) := by
  have hr : returnFromException s = { (pull16 t4).2 with pc := (pull16 t4).1 } := by subst h1 h2 h3 h4; rfl
  refine ⟨⟨?_, ?_, ?_, returnFromException_sp s, ?_, ?_⟩, ?_⟩ <;> rw [hr]
  · rw [pull16_a, h4]; simp only [pull16_a]; rw [h3]
  · rw [pull16_b, h4]; simp only [pull16_b]; rw [h3]; simp only [pull8_b]; rw [h2]
  · rw [pull16_x, h4]
  · rw [pull16_ccr, h4]; simp only [pull16_ccr]; rw [h3]; simp only [pull8_ccr]; rw [h2]; simp only [pull8_ccr]; rw [h1]
  · exact ⟨rfl, rfl, SamePeripherals.refl _⟩

/-- A return from an exception as seven reads in address order (R349, R424). -/
theorem returnFromException_spec (s : State) :
    ∃ c b a xh xl ph pl : Byte,
      (readAll ((List.range 7).map fun k => s.sp + 1 + BitVec.ofNat 16 k) s).1 = [c, b, a, xh, xl, ph, pl] ∧
      SameRegisters { s with sp := s.sp + 7, a := a, b := b, x := cat xh xl, pc := cat ph pl, ccr := Ccr.ofByte c }
        (returnFromException s) ∧
      SameForAccess (readAll ((List.range 7).map fun k => s.sp + 1 + BitVec.ofNat 16 k) s).2 (returnFromException s) := by
  obtain ⟨t1, h1⟩ : ∃ t : State, t = { (pull8 s).2 with ccr := Ccr.ofByte (pull8 s).1 } := ⟨_, rfl⟩
  obtain ⟨t2, h2⟩ : ∃ t : State, t = { (pull8 t1).2 with b := (pull8 t1).1 } := ⟨_, rfl⟩
  obtain ⟨t3, h3⟩ : ∃ t : State, t = { (pull8 t2).2 with a := (pull8 t2).1 } := ⟨_, rfl⟩
  obtain ⟨t4, h4⟩ : ∃ t : State, t = { (pull16 t3).2 with x := (pull16 t3).1 } := ⟨_, rfl⟩
  obtain ⟨hregs, hlast⟩ := returnFromException_chain h1 h2 h3 h4
  have s1 : t1.sp = s.sp + 1 := by rw [h1]; exact pull8_sp s
  have s2 : t2.sp = s.sp + 1 + 1 := by rw [h2, ← s1]; exact pull8_sp t1
  have s3 : t3.sp = s.sp + 1 + 1 + 1 := by rw [h3, ← s2]; exact pull8_sp t2
  have s4 : t4.sp = s.sp + 1 + 1 + 1 + 2 := by rw [h4, ← s3]; exact pull16_sp t3
  obtain ⟨v1, u1⟩ := pull8_spec (SameForAccess.refl s)
  obtain ⟨v2, u2⟩ := pull8_spec (u1.trans (u := t1) (by rw [h1]; exact ⟨rfl, rfl, SamePeripherals.refl _⟩))
  obtain ⟨v3, u3⟩ := pull8_spec (u2.trans (u := t2) (by rw [h2]; exact ⟨rfl, rfl, SamePeripherals.refl _⟩))
  obtain ⟨v4, u4⟩ := pull16_spec (u3.trans (u := t3) (by rw [h3]; exact ⟨rfl, rfl, SamePeripherals.refl _⟩))
  obtain ⟨v5, u5⟩ := pull16_spec (u4.trans (u := t4) (by rw [h4]; exact ⟨rfl, rfl, SamePeripherals.refl _⟩))
  have u6 := u5.trans hlast
  rw [v1, v2, v3, v4, v5] at hregs
  simp only [s1, s2, s3, s4, memRead16_eq, BitVec.add_assoc, BitVec.reduceAdd] at hregs u6
  have e : (List.range 7).map (fun k => s.sp + 1 + BitVec.ofNat 16 k) =
      [s.sp + 1, s.sp + 2, s.sp + 3, s.sp + 4, s.sp + 5, s.sp + 6, s.sp + 7] := by
    simp [List.range_succ, BitVec.add_assoc]
  rw [e]
  simp only [readAll]
  exact ⟨_, _, _, _, _, _, _, rfl, hregs, u6⟩

end Sys2Proof.Machine
end

