-- ==== Sys2Proof/Laws/Exec.lean ====
section
/-! SUPPORT. The shapes that several meanings share: for each, one lemma for each field it leaves alone, and what it leaves
of the interrupt mask; then what every instruction leaves alone. -/
namespace Sys2Proof.Machine

/-! ### A load of an accumulator -/

@[simp] theorem loadAcc_x (r : Acc) (src : Src8) (s : State) : (loadAcc r src s).x = s.x := by simp [loadAcc]
@[simp] theorem loadAcc_sp (r : Acc) (src : Src8) (s : State) : (loadAcc r src s).sp = s.sp := by simp [loadAcc]
@[simp] theorem loadAcc_pc (r : Acc) (src : Src8) (s : State) : (loadAcc r src s).pc = s.pc := by simp [loadAcc]
@[simp] theorem loadAcc_mem (r : Acc) (src : Src8) (s : State) : (loadAcc r src s).mem = s.mem := by simp [loadAcc]
@[simp] theorem loadAcc_frc (r : Acc) (src : Src8) (s : State) : (loadAcc r src s).frc = s.frc := by simp [loadAcc]
@[simp] theorem loadAcc_ocr (r : Acc) (src : Src8) (s : State) : (loadAcc r src s).ocr = s.ocr := by simp [loadAcc]
@[simp] theorem loadAcc_rdr (r : Acc) (src : Src8) (s : State) : (loadAcc r src s).rdr = s.rdr := by simp [loadAcc]
@[simp] theorem loadAcc_tdr (r : Acc) (src : Src8) (s : State) : (loadAcc r src s).tdr = s.tdr := by simp [loadAcc]
@[simp] theorem loadAcc_txPending (r : Acc) (src : Src8) (s : State) : (loadAcc r src s).txPending = s.txPending := by simp [loadAcc]
@[simp] theorem loadAcc_wait (r : Acc) (src : Src8) (s : State) : (loadAcc r src s).wait = s.wait := by simp [loadAcc]
@[simp] theorem loadAcc_halted (r : Acc) (src : Src8) (s : State) : (loadAcc r src s).halted = s.halted := by simp [loadAcc]
@[simp] theorem loadAcc_cycles (r : Acc) (src : Src8) (s : State) : (loadAcc r src s).cycles = s.cycles := by simp [loadAcc]
@[simp] theorem loadAcc_free (r : Acc) (src : Src8) (s : State) : (loadAcc r src s).free = s.free := by simp [loadAcc]
@[simp] theorem loadAcc_cfg (r : Acc) (src : Src8) (s : State) : (loadAcc r src s).cfg = s.cfg := by simp [loadAcc]

/-! ### An accumulator combined with a source -/

@[simp] theorem accOp_x (op : Byte → Byte → Ccr → Alu8) (r : Acc) (src : Src8) (s : State) : (accOp op r src s).x = s.x := by simp [accOp]
@[simp] theorem accOp_sp (op : Byte → Byte → Ccr → Alu8) (r : Acc) (src : Src8) (s : State) : (accOp op r src s).sp = s.sp := by simp [accOp]
@[simp] theorem accOp_pc (op : Byte → Byte → Ccr → Alu8) (r : Acc) (src : Src8) (s : State) : (accOp op r src s).pc = s.pc := by simp [accOp]
@[simp] theorem accOp_mem (op : Byte → Byte → Ccr → Alu8) (r : Acc) (src : Src8) (s : State) : (accOp op r src s).mem = s.mem := by simp [accOp]
@[simp] theorem accOp_frc (op : Byte → Byte → Ccr → Alu8) (r : Acc) (src : Src8) (s : State) : (accOp op r src s).frc = s.frc := by simp [accOp]
@[simp] theorem accOp_ocr (op : Byte → Byte → Ccr → Alu8) (r : Acc) (src : Src8) (s : State) : (accOp op r src s).ocr = s.ocr := by simp [accOp]
@[simp] theorem accOp_rdr (op : Byte → Byte → Ccr → Alu8) (r : Acc) (src : Src8) (s : State) : (accOp op r src s).rdr = s.rdr := by simp [accOp]
@[simp] theorem accOp_tdr (op : Byte → Byte → Ccr → Alu8) (r : Acc) (src : Src8) (s : State) : (accOp op r src s).tdr = s.tdr := by simp [accOp]
@[simp] theorem accOp_txPending (op : Byte → Byte → Ccr → Alu8) (r : Acc) (src : Src8) (s : State) : (accOp op r src s).txPending = s.txPending := by simp [accOp]
@[simp] theorem accOp_wait (op : Byte → Byte → Ccr → Alu8) (r : Acc) (src : Src8) (s : State) : (accOp op r src s).wait = s.wait := by simp [accOp]
@[simp] theorem accOp_halted (op : Byte → Byte → Ccr → Alu8) (r : Acc) (src : Src8) (s : State) : (accOp op r src s).halted = s.halted := by simp [accOp]
@[simp] theorem accOp_cycles (op : Byte → Byte → Ccr → Alu8) (r : Acc) (src : Src8) (s : State) : (accOp op r src s).cycles = s.cycles := by simp [accOp]
@[simp] theorem accOp_free (op : Byte → Byte → Ccr → Alu8) (r : Acc) (src : Src8) (s : State) : (accOp op r src s).free = s.free := by simp [accOp]
@[simp] theorem accOp_cfg (op : Byte → Byte → Ccr → Alu8) (r : Acc) (src : Src8) (s : State) : (accOp op r src s).cfg = s.cfg := by simp [accOp]

/-! ### An accumulator tested against a source -/

@[simp] theorem accTest_a (op : Byte → Byte → Ccr → Alu8) (r : Acc) (src : Src8) (s : State) : (accTest op r src s).a = s.a := by simp [accTest]
@[simp] theorem accTest_b (op : Byte → Byte → Ccr → Alu8) (r : Acc) (src : Src8) (s : State) : (accTest op r src s).b = s.b := by simp [accTest]
@[simp] theorem accTest_x (op : Byte → Byte → Ccr → Alu8) (r : Acc) (src : Src8) (s : State) : (accTest op r src s).x = s.x := by simp [accTest]
@[simp] theorem accTest_sp (op : Byte → Byte → Ccr → Alu8) (r : Acc) (src : Src8) (s : State) : (accTest op r src s).sp = s.sp := by simp [accTest]
@[simp] theorem accTest_pc (op : Byte → Byte → Ccr → Alu8) (r : Acc) (src : Src8) (s : State) : (accTest op r src s).pc = s.pc := by simp [accTest]
@[simp] theorem accTest_mem (op : Byte → Byte → Ccr → Alu8) (r : Acc) (src : Src8) (s : State) : (accTest op r src s).mem = s.mem := by simp [accTest]
@[simp] theorem accTest_frc (op : Byte → Byte → Ccr → Alu8) (r : Acc) (src : Src8) (s : State) : (accTest op r src s).frc = s.frc := by simp [accTest]
@[simp] theorem accTest_ocr (op : Byte → Byte → Ccr → Alu8) (r : Acc) (src : Src8) (s : State) : (accTest op r src s).ocr = s.ocr := by simp [accTest]
@[simp] theorem accTest_rdr (op : Byte → Byte → Ccr → Alu8) (r : Acc) (src : Src8) (s : State) : (accTest op r src s).rdr = s.rdr := by simp [accTest]
@[simp] theorem accTest_tdr (op : Byte → Byte → Ccr → Alu8) (r : Acc) (src : Src8) (s : State) : (accTest op r src s).tdr = s.tdr := by simp [accTest]
@[simp] theorem accTest_txPending (op : Byte → Byte → Ccr → Alu8) (r : Acc) (src : Src8) (s : State) : (accTest op r src s).txPending = s.txPending := by simp [accTest]
@[simp] theorem accTest_wait (op : Byte → Byte → Ccr → Alu8) (r : Acc) (src : Src8) (s : State) : (accTest op r src s).wait = s.wait := by simp [accTest]
@[simp] theorem accTest_halted (op : Byte → Byte → Ccr → Alu8) (r : Acc) (src : Src8) (s : State) : (accTest op r src s).halted = s.halted := by simp [accTest]
@[simp] theorem accTest_cycles (op : Byte → Byte → Ccr → Alu8) (r : Acc) (src : Src8) (s : State) : (accTest op r src s).cycles = s.cycles := by simp [accTest]
@[simp] theorem accTest_free (op : Byte → Byte → Ccr → Alu8) (r : Acc) (src : Src8) (s : State) : (accTest op r src s).free = s.free := by simp [accTest]
@[simp] theorem accTest_cfg (op : Byte → Byte → Ccr → Alu8) (r : Acc) (src : Src8) (s : State) : (accTest op r src s).cfg = s.cfg := by simp [accTest]

/-! ### An accumulator changed in place -/

@[simp] theorem accUnary_x (op : Byte → Ccr → Alu8) (r : Acc) (s : State) : (accUnary op r s).x = s.x := by simp [accUnary]
@[simp] theorem accUnary_sp (op : Byte → Ccr → Alu8) (r : Acc) (s : State) : (accUnary op r s).sp = s.sp := by simp [accUnary]
@[simp] theorem accUnary_pc (op : Byte → Ccr → Alu8) (r : Acc) (s : State) : (accUnary op r s).pc = s.pc := by simp [accUnary]
@[simp] theorem accUnary_mem (op : Byte → Ccr → Alu8) (r : Acc) (s : State) : (accUnary op r s).mem = s.mem := by simp [accUnary]
@[simp] theorem accUnary_tcsr (op : Byte → Ccr → Alu8) (r : Acc) (s : State) : (accUnary op r s).tcsr = s.tcsr := by simp [accUnary]
@[simp] theorem accUnary_frc (op : Byte → Ccr → Alu8) (r : Acc) (s : State) : (accUnary op r s).frc = s.frc := by simp [accUnary]
@[simp] theorem accUnary_ocr (op : Byte → Ccr → Alu8) (r : Acc) (s : State) : (accUnary op r s).ocr = s.ocr := by simp [accUnary]
@[simp] theorem accUnary_trcsr (op : Byte → Ccr → Alu8) (r : Acc) (s : State) : (accUnary op r s).trcsr = s.trcsr := by simp [accUnary]
@[simp] theorem accUnary_rdr (op : Byte → Ccr → Alu8) (r : Acc) (s : State) : (accUnary op r s).rdr = s.rdr := by simp [accUnary]
@[simp] theorem accUnary_tdr (op : Byte → Ccr → Alu8) (r : Acc) (s : State) : (accUnary op r s).tdr = s.tdr := by simp [accUnary]
@[simp] theorem accUnary_txPending (op : Byte → Ccr → Alu8) (r : Acc) (s : State) : (accUnary op r s).txPending = s.txPending := by simp [accUnary]
@[simp] theorem accUnary_ocArmed (op : Byte → Ccr → Alu8) (r : Acc) (s : State) : (accUnary op r s).ocArmed = s.ocArmed := by simp [accUnary]
@[simp] theorem accUnary_tofArmed (op : Byte → Ccr → Alu8) (r : Acc) (s : State) : (accUnary op r s).tofArmed = s.tofArmed := by simp [accUnary]
@[simp] theorem accUnary_wait (op : Byte → Ccr → Alu8) (r : Acc) (s : State) : (accUnary op r s).wait = s.wait := by simp [accUnary]
@[simp] theorem accUnary_halted (op : Byte → Ccr → Alu8) (r : Acc) (s : State) : (accUnary op r s).halted = s.halted := by simp [accUnary]
@[simp] theorem accUnary_cycles (op : Byte → Ccr → Alu8) (r : Acc) (s : State) : (accUnary op r s).cycles = s.cycles := by simp [accUnary]
@[simp] theorem accUnary_free (op : Byte → Ccr → Alu8) (r : Acc) (s : State) : (accUnary op r s).free = s.free := by simp [accUnary]
@[simp] theorem accUnary_cfg (op : Byte → Ccr → Alu8) (r : Acc) (s : State) : (accUnary op r s).cfg = s.cfg := by simp [accUnary]

/-! ### A byte of memory changed in place -/

@[simp] theorem memUnary_a (op : Byte → Ccr → Alu8) (m : Mode) (s : State) : (memUnary op m s).a = s.a := by simp [memUnary]
@[simp] theorem memUnary_b (op : Byte → Ccr → Alu8) (m : Mode) (s : State) : (memUnary op m s).b = s.b := by simp [memUnary]
@[simp] theorem memUnary_x (op : Byte → Ccr → Alu8) (m : Mode) (s : State) : (memUnary op m s).x = s.x := by simp [memUnary]
@[simp] theorem memUnary_sp (op : Byte → Ccr → Alu8) (m : Mode) (s : State) : (memUnary op m s).sp = s.sp := by simp [memUnary]
@[simp] theorem memUnary_pc (op : Byte → Ccr → Alu8) (m : Mode) (s : State) : (memUnary op m s).pc = s.pc := by simp [memUnary]
@[simp] theorem memUnary_rdr (op : Byte → Ccr → Alu8) (m : Mode) (s : State) : (memUnary op m s).rdr = s.rdr := by simp [memUnary]
@[simp] theorem memUnary_wait (op : Byte → Ccr → Alu8) (m : Mode) (s : State) : (memUnary op m s).wait = s.wait := by simp [memUnary]
@[simp] theorem memUnary_halted (op : Byte → Ccr → Alu8) (m : Mode) (s : State) : (memUnary op m s).halted = s.halted := by simp [memUnary]
@[simp] theorem memUnary_cycles (op : Byte → Ccr → Alu8) (m : Mode) (s : State) : (memUnary op m s).cycles = s.cycles := by simp [memUnary]
@[simp] theorem memUnary_free (op : Byte → Ccr → Alu8) (m : Mode) (s : State) : (memUnary op m s).free = s.free := by simp [memUnary]
@[simp] theorem memUnary_cfg (op : Byte → Ccr → Alu8) (m : Mode) (s : State) : (memUnary op m s).cfg = s.cfg := by simp [memUnary]

/-! ### A store of a byte -/

@[simp] theorem store8_a (v : Byte) (m : Mode) (s : State) : (store8 v m s).a = s.a := by simp [store8]
@[simp] theorem store8_b (v : Byte) (m : Mode) (s : State) : (store8 v m s).b = s.b := by simp [store8]
@[simp] theorem store8_x (v : Byte) (m : Mode) (s : State) : (store8 v m s).x = s.x := by simp [store8]
@[simp] theorem store8_sp (v : Byte) (m : Mode) (s : State) : (store8 v m s).sp = s.sp := by simp [store8]
@[simp] theorem store8_pc (v : Byte) (m : Mode) (s : State) : (store8 v m s).pc = s.pc := by simp [store8]
@[simp] theorem store8_rdr (v : Byte) (m : Mode) (s : State) : (store8 v m s).rdr = s.rdr := by simp [store8]
@[simp] theorem store8_wait (v : Byte) (m : Mode) (s : State) : (store8 v m s).wait = s.wait := by simp [store8]
@[simp] theorem store8_halted (v : Byte) (m : Mode) (s : State) : (store8 v m s).halted = s.halted := by simp [store8]
@[simp] theorem store8_cycles (v : Byte) (m : Mode) (s : State) : (store8 v m s).cycles = s.cycles := by simp [store8]
@[simp] theorem store8_free (v : Byte) (m : Mode) (s : State) : (store8 v m s).free = s.free := by simp [store8]
@[simp] theorem store8_cfg (v : Byte) (m : Mode) (s : State) : (store8 v m s).cfg = s.cfg := by simp [store8]
@[simp] theorem store8_tofArmed (v : Byte) (m : Mode) (s : State) : (store8 v m s).tofArmed = s.tofArmed := by simp [store8]

/-! ### A store of a word -/

@[simp] theorem store16_a (v : Word) (m : Mode) (s : State) : (store16 v m s).a = s.a := by simp [store16]
@[simp] theorem store16_b (v : Word) (m : Mode) (s : State) : (store16 v m s).b = s.b := by simp [store16]
@[simp] theorem store16_x (v : Word) (m : Mode) (s : State) : (store16 v m s).x = s.x := by simp [store16]
@[simp] theorem store16_sp (v : Word) (m : Mode) (s : State) : (store16 v m s).sp = s.sp := by simp [store16]
@[simp] theorem store16_pc (v : Word) (m : Mode) (s : State) : (store16 v m s).pc = s.pc := by simp [store16]
@[simp] theorem store16_rdr (v : Word) (m : Mode) (s : State) : (store16 v m s).rdr = s.rdr := by simp [store16]
@[simp] theorem store16_wait (v : Word) (m : Mode) (s : State) : (store16 v m s).wait = s.wait := by simp [store16]
@[simp] theorem store16_halted (v : Word) (m : Mode) (s : State) : (store16 v m s).halted = s.halted := by simp [store16]
@[simp] theorem store16_cycles (v : Word) (m : Mode) (s : State) : (store16 v m s).cycles = s.cycles := by simp [store16]
@[simp] theorem store16_free (v : Word) (m : Mode) (s : State) : (store16 v m s).free = s.free := by simp [store16]
@[simp] theorem store16_cfg (v : Word) (m : Mode) (s : State) : (store16 v m s).cfg = s.cfg := by simp [store16]
@[simp] theorem store16_tofArmed (v : Word) (m : Mode) (s : State) : (store16 v m s).tofArmed = s.tofArmed := by simp [store16]

/-! ### A branch -/

@[simp] theorem branchIf_a (c : Bool) (rel : Byte) (s : State) : (branchIf c rel s).a = s.a := by cases c <;> rfl
@[simp] theorem branchIf_b (c : Bool) (rel : Byte) (s : State) : (branchIf c rel s).b = s.b := by cases c <;> rfl
@[simp] theorem branchIf_x (c : Bool) (rel : Byte) (s : State) : (branchIf c rel s).x = s.x := by cases c <;> rfl
@[simp] theorem branchIf_sp (c : Bool) (rel : Byte) (s : State) : (branchIf c rel s).sp = s.sp := by cases c <;> rfl
@[simp] theorem branchIf_ccr (c : Bool) (rel : Byte) (s : State) : (branchIf c rel s).ccr = s.ccr := by cases c <;> rfl
@[simp] theorem branchIf_mem (c : Bool) (rel : Byte) (s : State) : (branchIf c rel s).mem = s.mem := by cases c <;> rfl
@[simp] theorem branchIf_tcsr (c : Bool) (rel : Byte) (s : State) : (branchIf c rel s).tcsr = s.tcsr := by cases c <;> rfl
@[simp] theorem branchIf_frc (c : Bool) (rel : Byte) (s : State) : (branchIf c rel s).frc = s.frc := by cases c <;> rfl
@[simp] theorem branchIf_ocr (c : Bool) (rel : Byte) (s : State) : (branchIf c rel s).ocr = s.ocr := by cases c <;> rfl
@[simp] theorem branchIf_trcsr (c : Bool) (rel : Byte) (s : State) : (branchIf c rel s).trcsr = s.trcsr := by cases c <;> rfl
@[simp] theorem branchIf_rdr (c : Bool) (rel : Byte) (s : State) : (branchIf c rel s).rdr = s.rdr := by cases c <;> rfl
@[simp] theorem branchIf_tdr (c : Bool) (rel : Byte) (s : State) : (branchIf c rel s).tdr = s.tdr := by cases c <;> rfl
@[simp] theorem branchIf_txPending (c : Bool) (rel : Byte) (s : State) : (branchIf c rel s).txPending = s.txPending := by cases c <;> rfl
@[simp] theorem branchIf_ocArmed (c : Bool) (rel : Byte) (s : State) : (branchIf c rel s).ocArmed = s.ocArmed := by cases c <;> rfl
@[simp] theorem branchIf_tofArmed (c : Bool) (rel : Byte) (s : State) : (branchIf c rel s).tofArmed = s.tofArmed := by cases c <;> rfl
@[simp] theorem branchIf_wait (c : Bool) (rel : Byte) (s : State) : (branchIf c rel s).wait = s.wait := by cases c <;> rfl
@[simp] theorem branchIf_halted (c : Bool) (rel : Byte) (s : State) : (branchIf c rel s).halted = s.halted := by cases c <;> rfl
@[simp] theorem branchIf_cycles (c : Bool) (rel : Byte) (s : State) : (branchIf c rel s).cycles = s.cycles := by cases c <;> rfl
@[simp] theorem branchIf_free (c : Bool) (rel : Byte) (s : State) : (branchIf c rel s).free = s.free := by cases c <;> rfl
@[simp] theorem branchIf_cfg (c : Bool) (rel : Byte) (s : State) : (branchIf c rel s).cfg = s.cfg := by cases c <;> rfl

/-! ### The bytes each shape writes -/

theorem memUnary_mem (op : Byte → Ccr → Alu8) (m : Mode) (s : State) :
    (memUnary op m s).mem = (memWrite (s.ea m) (op (s.peek (s.ea m)) s.ccr).1 (s.touch (s.ea m))).mem := rfl

theorem store8_mem (v : Byte) (m : Mode) (s : State) : (store8 v m s).mem = (memWrite (s.ea m) v s).mem :=
  memWrite_mem_congr (s := s) (t := { s with ccr := s.ccr.move8 v }) rfl rfl _ _

theorem store16_mem (v : Word) (m : Mode) (s : State) :
    (store16 v m s).mem = (writeAll [(s.ea m, hi v), (s.ea m + 1, lo v)] s).mem :=
  writeAll_mem_congr [(s.ea m, hi v), (s.ea m + 1, lo v)] (s := s) (t := { s with ccr := s.ccr.move16 v }) rfl rfl

theorem push8_mem (v : Byte) (s : State) : (push8 v s).mem = (memWrite s.sp v s).mem := rfl

theorem push16_mem (v : Word) (s : State) :
    (push16 v s).mem = (writeAll [(s.sp, lo v), (s.sp - 1, hi v)] s).mem := by rw [push16_eq]

theorem callTo_mem (target : Word) (s : State) :
    (callTo target s).mem = (writeAll [(s.sp, lo s.pc), (s.sp - 1, hi s.pc)] s).mem := by rw [callTo_eq]

theorem stackAll_mem (s : State) : (stackAll s).mem = (writeAll (stackImage s) s).mem := by rw [stackAll_eq]

theorem takeException_mem (v : Word) (s : State) : (takeException v s).mem = (writeAll (stackImage s) s).mem :=
  (takeException_eq v s).2.2.1

/-! ### The flags each shape leaves -/

theorem loadAcc_ccr (r : Acc) (src : Src8) (s : State) : (loadAcc r src s).ccr = s.ccr.move8 (srcValue8 src s) := by
  simp [loadAcc, opnd8_eq]

theorem accOp_ccr (op : Byte → Byte → Ccr → Alu8) (r : Acc) (src : Src8) (s : State) :
    (accOp op r src s).ccr = (op (s.acc r) (srcValue8 src s) s.ccr).2 := by
  simp [accOp, opnd8_eq]

theorem accTest_ccr (op : Byte → Byte → Ccr → Alu8) (r : Acc) (src : Src8) (s : State) :
    (accTest op r src s).ccr = (op (s.acc r) (srcValue8 src s) s.ccr).2 := by
  simp [accTest, opnd8_eq]

theorem accUnary_ccr (op : Byte → Ccr → Alu8) (r : Acc) (s : State) :
    (accUnary op r s).ccr = (op (s.acc r) s.ccr).2 := by
  simp [accUnary]

theorem memUnary_ccr (op : Byte → Ccr → Alu8) (m : Mode) (s : State) :
    (memUnary op m s).ccr = (op (s.peek (s.ea m)) s.ccr).2 := rfl

theorem store8_ccr (v : Byte) (m : Mode) (s : State) : (store8 v m s).ccr = s.ccr.move8 v := by simp [store8]

theorem store16_ccr (v : Word) (m : Mode) (s : State) : (store16 v m s).ccr = s.ccr.move16 v := by simp [store16]

/-! ### Every instruction -/

/-- An instruction that answers a next state leaves the halt flag, RDR, the cycle counter and the parameters alone, and the
wait state too but for WAI and SLP. -/
theorem exec_next_frame {i : Instr} {s t : State} (h : exec i s = .next t) :
    t.halted = s.halted ∧ t.rdr = s.rdr ∧ t.cycles = s.cycles ∧ t.cfg = s.cfg ∧
      (t.wait = s.wait ∨ i = .wai ∨ i = .slp) := by
  cases i
  case illegal op => cases h
  case wai => injection h with h; subst h; simp
  case slp => injection h with h; subst h; simp
  all_goals
    injection h with h
    subst h
    simp

/-- Every instruction keeps the canonical form of the byte array. -/
theorem exec_keeps_memory_wf {i : Instr} {s t : State} (hw : s.mem.wf = true) (h : exec i s = .next t) :
    t.mem.wf = true := by
  have hread : ∀ p, (s.touch p).mem.wf = true := fun p => by rw [State.touch_mem]; exact hw
  cases i
  case illegal op => cases h
  all_goals
    injection h with h
    subst h
    try simp only [memUnary_mem, store8_mem, store16_mem, push8_mem, push16_mem, callTo_mem, stackAll_mem,
      takeException_mem, returnFromException_mem, loadAcc_mem, accOp_mem, accTest_mem, accUnary_mem, branchIf_mem,
      opnd16_mem, pull8_mem, pull16_mem, memRead_mem, State.setD_mem]
  all_goals first
    | exact hw
    | exact memWrite_wf hw ..
    | exact memWrite_wf (hread _) ..
    | exact writeAll_wf _ hw

/-- The byte array of the reset state has its canonical form. -/
theorem reset_memory_wf : State.reset.mem.wf = true := rfl

/-- And so has every array that a poke or a placed instruction leaves (R78). -/
theorem placeByte_wf {s : State} (hw : s.mem.wf = true) (a : Word) (v : Byte) : (placeByte a v s).mem.wf = true := by
  unfold placeByte
  split <;> first | exact hw | exact Memory.wf_write _ _ _ hw a.isLt

theorem hostPoke_wf {s t : State} {a : Word} {v : Byte} (hw : s.mem.wf = true) (h : hostPoke a v s = .next t) :
    t.mem.wf = true := by
  unfold hostPoke at h
  split at h
  · injection h with h
    subst h
    exact Memory.wf_write _ _ _ hw a.isLt
  · cases h

/-- Only an undefined opcode faults (R402). -/
theorem exec_fault_cases {i : Instr} {s : State} {r : Fault} (h : exec i s = .fault r) :
    ∃ op, i = .illegal op ∧ r = .illegalOpcode op (s.pc - 1) { s with halted := true } := by
  cases i
  case illegal op => injection h with h; exact ⟨op, rfl, h.symm⟩
  all_goals cases h

end Sys2Proof.Machine
end

