-- ==== Sys2Proof/Laws/Inv.lean ====
section
/-! SUPPORT. The invariant of `Sys2Proof/Safety.lean` is kept by each primitive operation: a read, a write, an advance of
the timer, and any change of registers and engine alone. -/
namespace Sys2Proof.Machine

/-- The invariant does not see the registers and the engine. -/
theorem MachineInv.congr {s t : State} (h : MachineInv s) (hs : SameForAccess s t) : MachineInv t := by
  obtain ⟨⟨h1, h2⟩, h3, h4, h5, h6⟩ := h
  obtain ⟨hc, hm, p1, p2, p3, p4, p5, p6, p7, p8, p9⟩ := hs
  refine ⟨⟨by rw [hm]; exact h1, fun a ha => by rw [hm]; exact h2 a (by rw [← hc]; exact ha)⟩, ?_⟩
  simp only [PeripheralInv, State.ocf, State.tof, State.tdre, p1, p4, p7, p8, p9] at *
  exact ⟨h3, h4, h5, h6⟩

theorem armLatches_inv {s : State} (h : MachineInv s) : MachineInv s.armLatches := by
  obtain ⟨hm, h3, h4, h5, h6⟩ := h
  refine ⟨hm, h3, fun e => ?_, fun e => ?_, h6⟩
  · rcases Bool.or_eq_true _ _ ▸ (show (s.ocArmed || s.ocf) = true from e) with e | e
    · exact h4 e
    · exact e
  · rcases Bool.or_eq_true _ _ ▸ (show (s.tofArmed || s.tof) = true from e) with e | e
    · exact h5 e
    · exact e

theorem clearTof_inv {s : State} (h : MachineInv s) : MachineInv s.clearTof := by
  obtain ⟨hm, h3, h4, h5, h6⟩ := h
  have m := (mask_flags s.tcsr).1
  refine ⟨hm, ?_, ?_, fun e => (by cases e), h6⟩ <;> by_cases ha : s.tofArmed = true <;>
    simp [State.clearTof, State.ocf, ha, m]
  · exact h3
  · exact h3
  · exact h4
  · exact h4

theorem clearOcf_inv {s : State} (h : MachineInv s) : MachineInv s.clearOcf := by
  obtain ⟨hm, h3, h4, h5, h6⟩ := h
  have m := (mask_flags s.tcsr).2.1
  refine ⟨hm, ?_, fun e => (by cases e), ?_, h6⟩ <;> by_cases ha : s.ocArmed = true <;>
    simp [State.clearOcf, State.tof, ha, m]
  · exact h3
  · exact h3
  · exact h5
  · exact h5

theorem clearReceive_inv {s : State} (h : MachineInv s) : MachineInv s.clearReceive := by
  obtain ⟨hm, h3, h4, h5, h6⟩ := h
  exact ⟨hm, h3, h4, h5, by simpa [State.clearReceive, State.tdre, (mask_flags s.trcsr).2.2] using h6⟩

/-- A read keeps the invariant. -/
theorem touch_inv {s : State} (h : MachineInv s) (p : Word) : MachineInv (s.touch p) := by
  rcases State.touch_cases s p with e | ⟨-, e⟩ | ⟨-, e⟩ | ⟨-, e⟩ <;> rw [e]
  · exact h
  · exact armLatches_inv h
  · exact clearTof_inv h
  · exact clearReceive_inv h

/-- A write keeps the invariant. -/
theorem memWrite_inv {s : State} (h : MachineInv s) (p : Word) (v : Byte) : MachineInv (memWrite p v s) := by
  have hs := h
  obtain ⟨⟨h1, h2⟩, h3, h4, h5, h6⟩ := h
  cases hr : regAt s.cfg p with
  | none =>
    rw [memWrite_plain hr]
    refine ⟨⟨Memory.wf_write _ _ _ h1 p.isLt, fun a ha => ?_⟩, h3, h4, h5, h6⟩
    have ha' : a ≠ p := fun e => ha (by rw [e]; exact hr)
    exact (Memory.read_write_ne _ _ _ _ fun e => ha' (BitVec.eq_of_toNat_eq e)).trans (h2 a ha)
  | some r =>
    cases r with
    | tcsr =>
      rw [memWrite_at_tcsr hr]
      obtain ⟨m1, m2, m3⟩ := statusWrite_flags s.tcsr v
      exact ⟨⟨h1, h2⟩, m1.trans h3, fun e => m2.trans (h4 e), fun e => m3.trans (h5 e), h6⟩
    | frcHi => rw [memWrite_at_frcHi hr]; exact ⟨⟨h1, h2⟩, h3, h4, h5, h6⟩
    | frcLo => rw [memWrite_at_frcLo hr]; exact ⟨⟨h1, h2⟩, h3, h4, h5, h6⟩
    | ocrHi => rw [memWrite_at_ocrHi hr]; exact clearOcf_inv ⟨⟨h1, h2⟩, h3, h4, h5, h6⟩
    | ocrLo => rw [memWrite_at_ocrLo hr]; exact clearOcf_inv ⟨⟨h1, h2⟩, h3, h4, h5, h6⟩
    | trcsr =>
      rw [memWrite_at_trcsr hr]
      exact ⟨⟨h1, h2⟩, h3, h4, h5, (statusWrite_flags s.trcsr v).2.2.trans h6⟩
    | rdr => rw [memWrite_at_rdr hr]; exact hs
    | tdr =>
      rw [memWrite_at_tdr hr]
      exact ⟨⟨h1, h2⟩, h3, h4, h5, (mask_flags s.trcsr).1.2.2⟩

theorem writeAll_inv {s : State} (h : MachineInv s) (w : List (Word × Byte)) : MachineInv (writeAll w s) := by
  induction w generalizing s with
  | nil => exact h
  | cons p w ih => exact ih (memWrite_inv h p.1 p.2)

/-- The bits an advance may set leave ICF alone and clear nothing. -/
theorem advance_flags : ∀ (v : Byte) (b c : Bool),
    let w := v ||| (if b then 0x40#8 else 0#8) ||| (if c then 0x20#8 else 0#8)
    w[7] = v[7] ∧ (v[6] = true → w[6] = true) ∧ (v[5] = true → w[5] = true) := by
  decide

/-- An advance keeps the invariant. -/
theorem advance_inv {s : State} (h : MachineInv s) (n : Nat) : MachineInv (s.advance n) := by
  obtain ⟨hm, h3, h4, h5, h6⟩ := h
  obtain ⟨m1, m2, m3⟩ := advance_flags s.tcsr (compareHit s.ocr s.frc n) (overflowHit s.frc n)
  exact ⟨hm, m1.trans h3, fun e => m2 (h4 e), fun e => m3 (h5 e), h6⟩

end Sys2Proof.Machine
end

