-- ==== Sys2Proof/Laws/PerInstr.lean ====
section
/-! SUPPORT. The statements made for every instruction, one lemma for each constructor of `Instr`. -/
namespace Sys2Proof.Laws

/-- The bytes that encode an instruction are as many as its format says (30_encoding.md R94, R96). -/
def EncodedLength.Statement (i : Instr) : Prop := (encode i).length = i.format.length

theorem EncodedLength.ldaa (src : Src8) : EncodedLength.Statement (.ldaa src) := by
  cases src with
  | imm v => rfl
  | mem m => cases m <;> rfl
theorem EncodedLength.ldab (src : Src8) : EncodedLength.Statement (.ldab src) := by
  cases src with
  | imm v => rfl
  | mem m => cases m <;> rfl
theorem EncodedLength.ldd (src : Src16) : EncodedLength.Statement (.ldd src) := by
  cases src with
  | imm v => rfl
  | mem m => cases m <;> rfl
theorem EncodedLength.ldx (src : Src16) : EncodedLength.Statement (.ldx src) := by
  cases src with
  | imm v => rfl
  | mem m => cases m <;> rfl
theorem EncodedLength.lds (src : Src16) : EncodedLength.Statement (.lds src) := by
  cases src with
  | imm v => rfl
  | mem m => cases m <;> rfl
theorem EncodedLength.staa (m : Mode) : EncodedLength.Statement (.staa m) := by cases m <;> rfl
theorem EncodedLength.stab (m : Mode) : EncodedLength.Statement (.stab m) := by cases m <;> rfl
theorem EncodedLength.std (m : Mode) : EncodedLength.Statement (.std m) := by cases m <;> rfl
theorem EncodedLength.stx (m : Mode) : EncodedLength.Statement (.stx m) := by cases m <;> rfl
theorem EncodedLength.sts (m : Mode) : EncodedLength.Statement (.sts m) := by cases m <;> rfl
theorem EncodedLength.tab : EncodedLength.Statement .tab := rfl
theorem EncodedLength.tba : EncodedLength.Statement .tba := rfl
theorem EncodedLength.tap : EncodedLength.Statement .tap := rfl
theorem EncodedLength.tpa : EncodedLength.Statement .tpa := rfl
theorem EncodedLength.tsx : EncodedLength.Statement .tsx := rfl
theorem EncodedLength.txs : EncodedLength.Statement .txs := rfl
theorem EncodedLength.xgdx : EncodedLength.Statement .xgdx := rfl
theorem EncodedLength.psha : EncodedLength.Statement .psha := rfl
theorem EncodedLength.pshb : EncodedLength.Statement .pshb := rfl
theorem EncodedLength.pula : EncodedLength.Statement .pula := rfl
theorem EncodedLength.pulb : EncodedLength.Statement .pulb := rfl
theorem EncodedLength.pshx : EncodedLength.Statement .pshx := rfl
theorem EncodedLength.pulx : EncodedLength.Statement .pulx := rfl
theorem EncodedLength.aba : EncodedLength.Statement .aba := rfl
theorem EncodedLength.adda (src : Src8) : EncodedLength.Statement (.adda src) := by
  cases src with
  | imm v => rfl
  | mem m => cases m <;> rfl
theorem EncodedLength.addb (src : Src8) : EncodedLength.Statement (.addb src) := by
  cases src with
  | imm v => rfl
  | mem m => cases m <;> rfl
theorem EncodedLength.adca (src : Src8) : EncodedLength.Statement (.adca src) := by
  cases src with
  | imm v => rfl
  | mem m => cases m <;> rfl
theorem EncodedLength.adcb (src : Src8) : EncodedLength.Statement (.adcb src) := by
  cases src with
  | imm v => rfl
  | mem m => cases m <;> rfl
theorem EncodedLength.suba (src : Src8) : EncodedLength.Statement (.suba src) := by
  cases src with
  | imm v => rfl
  | mem m => cases m <;> rfl
theorem EncodedLength.subb (src : Src8) : EncodedLength.Statement (.subb src) := by
  cases src with
  | imm v => rfl
  | mem m => cases m <;> rfl
theorem EncodedLength.sbca (src : Src8) : EncodedLength.Statement (.sbca src) := by
  cases src with
  | imm v => rfl
  | mem m => cases m <;> rfl
theorem EncodedLength.sbcb (src : Src8) : EncodedLength.Statement (.sbcb src) := by
  cases src with
  | imm v => rfl
  | mem m => cases m <;> rfl
theorem EncodedLength.addd (src : Src16) : EncodedLength.Statement (.addd src) := by
  cases src with
  | imm v => rfl
  | mem m => cases m <;> rfl
theorem EncodedLength.subd (src : Src16) : EncodedLength.Statement (.subd src) := by
  cases src with
  | imm v => rfl
  | mem m => cases m <;> rfl
theorem EncodedLength.sba : EncodedLength.Statement .sba := rfl
theorem EncodedLength.mul : EncodedLength.Statement .mul := rfl
theorem EncodedLength.abx : EncodedLength.Statement .abx := rfl
theorem EncodedLength.daa : EncodedLength.Statement .daa := rfl
theorem EncodedLength.nega : EncodedLength.Statement .nega := rfl
theorem EncodedLength.negb : EncodedLength.Statement .negb := rfl
theorem EncodedLength.neg (m : ModeXE) : EncodedLength.Statement (.neg m) := by cases m <;> rfl
theorem EncodedLength.inca : EncodedLength.Statement .inca := rfl
theorem EncodedLength.incb : EncodedLength.Statement .incb := rfl
theorem EncodedLength.inc (m : ModeXE) : EncodedLength.Statement (.inc m) := by cases m <;> rfl
theorem EncodedLength.deca : EncodedLength.Statement .deca := rfl
theorem EncodedLength.decb : EncodedLength.Statement .decb := rfl
theorem EncodedLength.dec (m : ModeXE) : EncodedLength.Statement (.dec m) := by cases m <;> rfl
theorem EncodedLength.inx : EncodedLength.Statement .inx := rfl
theorem EncodedLength.dex : EncodedLength.Statement .dex := rfl
theorem EncodedLength.ins : EncodedLength.Statement .ins := rfl
theorem EncodedLength.des : EncodedLength.Statement .des := rfl
theorem EncodedLength.cmpa (src : Src8) : EncodedLength.Statement (.cmpa src) := by
  cases src with
  | imm v => rfl
  | mem m => cases m <;> rfl
theorem EncodedLength.cmpb (src : Src8) : EncodedLength.Statement (.cmpb src) := by
  cases src with
  | imm v => rfl
  | mem m => cases m <;> rfl
theorem EncodedLength.cba : EncodedLength.Statement .cba := rfl
theorem EncodedLength.cpx (src : Src16) : EncodedLength.Statement (.cpx src) := by
  cases src with
  | imm v => rfl
  | mem m => cases m <;> rfl
theorem EncodedLength.tsta : EncodedLength.Statement .tsta := rfl
theorem EncodedLength.tstb : EncodedLength.Statement .tstb := rfl
theorem EncodedLength.tst (m : ModeXE) : EncodedLength.Statement (.tst m) := by cases m <;> rfl
theorem EncodedLength.anda (src : Src8) : EncodedLength.Statement (.anda src) := by
  cases src with
  | imm v => rfl
  | mem m => cases m <;> rfl
theorem EncodedLength.andb (src : Src8) : EncodedLength.Statement (.andb src) := by
  cases src with
  | imm v => rfl
  | mem m => cases m <;> rfl
theorem EncodedLength.oraa (src : Src8) : EncodedLength.Statement (.oraa src) := by
  cases src with
  | imm v => rfl
  | mem m => cases m <;> rfl
theorem EncodedLength.orab (src : Src8) : EncodedLength.Statement (.orab src) := by
  cases src with
  | imm v => rfl
  | mem m => cases m <;> rfl
theorem EncodedLength.eora (src : Src8) : EncodedLength.Statement (.eora src) := by
  cases src with
  | imm v => rfl
  | mem m => cases m <;> rfl
theorem EncodedLength.eorb (src : Src8) : EncodedLength.Statement (.eorb src) := by
  cases src with
  | imm v => rfl
  | mem m => cases m <;> rfl
theorem EncodedLength.bita (src : Src8) : EncodedLength.Statement (.bita src) := by
  cases src with
  | imm v => rfl
  | mem m => cases m <;> rfl
theorem EncodedLength.bitb (src : Src8) : EncodedLength.Statement (.bitb src) := by
  cases src with
  | imm v => rfl
  | mem m => cases m <;> rfl
theorem EncodedLength.coma : EncodedLength.Statement .coma := rfl
theorem EncodedLength.comb : EncodedLength.Statement .comb := rfl
theorem EncodedLength.com (m : ModeXE) : EncodedLength.Statement (.com m) := by cases m <;> rfl
theorem EncodedLength.clra : EncodedLength.Statement .clra := rfl
theorem EncodedLength.clrb : EncodedLength.Statement .clrb := rfl
theorem EncodedLength.clr (m : ModeXE) : EncodedLength.Statement (.clr m) := by cases m <;> rfl
theorem EncodedLength.asla : EncodedLength.Statement .asla := rfl
theorem EncodedLength.aslb : EncodedLength.Statement .aslb := rfl
theorem EncodedLength.asl (m : ModeXE) : EncodedLength.Statement (.asl m) := by cases m <;> rfl
theorem EncodedLength.asra : EncodedLength.Statement .asra := rfl
theorem EncodedLength.asrb : EncodedLength.Statement .asrb := rfl
theorem EncodedLength.asr (m : ModeXE) : EncodedLength.Statement (.asr m) := by cases m <;> rfl
theorem EncodedLength.lsra : EncodedLength.Statement .lsra := rfl
theorem EncodedLength.lsrb : EncodedLength.Statement .lsrb := rfl
theorem EncodedLength.lsr (m : ModeXE) : EncodedLength.Statement (.lsr m) := by cases m <;> rfl
theorem EncodedLength.rola : EncodedLength.Statement .rola := rfl
theorem EncodedLength.rolb : EncodedLength.Statement .rolb := rfl
theorem EncodedLength.rol (m : ModeXE) : EncodedLength.Statement (.rol m) := by cases m <;> rfl
theorem EncodedLength.rora : EncodedLength.Statement .rora := rfl
theorem EncodedLength.rorb : EncodedLength.Statement .rorb := rfl
theorem EncodedLength.ror (m : ModeXE) : EncodedLength.Statement (.ror m) := by cases m <;> rfl
theorem EncodedLength.asld : EncodedLength.Statement .asld := rfl
theorem EncodedLength.lsrd : EncodedLength.Statement .lsrd := rfl
theorem EncodedLength.aim (mask : Byte) (m : ModeDX) : EncodedLength.Statement (.aim mask m) := by cases m <;> rfl
theorem EncodedLength.oim (mask : Byte) (m : ModeDX) : EncodedLength.Statement (.oim mask m) := by cases m <;> rfl
theorem EncodedLength.eim (mask : Byte) (m : ModeDX) : EncodedLength.Statement (.eim mask m) := by cases m <;> rfl
theorem EncodedLength.tim (mask : Byte) (m : ModeDX) : EncodedLength.Statement (.tim mask m) := by cases m <;> rfl
theorem EncodedLength.bra (rel : Byte) : EncodedLength.Statement (.bra rel) := rfl
theorem EncodedLength.brn (rel : Byte) : EncodedLength.Statement (.brn rel) := rfl
theorem EncodedLength.bhi (rel : Byte) : EncodedLength.Statement (.bhi rel) := rfl
theorem EncodedLength.bls (rel : Byte) : EncodedLength.Statement (.bls rel) := rfl
theorem EncodedLength.bcc (rel : Byte) : EncodedLength.Statement (.bcc rel) := rfl
theorem EncodedLength.bcs (rel : Byte) : EncodedLength.Statement (.bcs rel) := rfl
theorem EncodedLength.bne (rel : Byte) : EncodedLength.Statement (.bne rel) := rfl
theorem EncodedLength.beq (rel : Byte) : EncodedLength.Statement (.beq rel) := rfl
theorem EncodedLength.bvc (rel : Byte) : EncodedLength.Statement (.bvc rel) := rfl
theorem EncodedLength.bvs (rel : Byte) : EncodedLength.Statement (.bvs rel) := rfl
theorem EncodedLength.bpl (rel : Byte) : EncodedLength.Statement (.bpl rel) := rfl
theorem EncodedLength.bmi (rel : Byte) : EncodedLength.Statement (.bmi rel) := rfl
theorem EncodedLength.bge (rel : Byte) : EncodedLength.Statement (.bge rel) := rfl
theorem EncodedLength.blt (rel : Byte) : EncodedLength.Statement (.blt rel) := rfl
theorem EncodedLength.bgt (rel : Byte) : EncodedLength.Statement (.bgt rel) := rfl
theorem EncodedLength.ble (rel : Byte) : EncodedLength.Statement (.ble rel) := rfl
theorem EncodedLength.jmp (m : ModeXE) : EncodedLength.Statement (.jmp m) := by cases m <;> rfl
theorem EncodedLength.jsr (m : Mode) : EncodedLength.Statement (.jsr m) := by cases m <;> rfl
theorem EncodedLength.bsr (rel : Byte) : EncodedLength.Statement (.bsr rel) := rfl
theorem EncodedLength.rts : EncodedLength.Statement .rts := rfl
theorem EncodedLength.nop : EncodedLength.Statement .nop := rfl
theorem EncodedLength.clc : EncodedLength.Statement .clc := rfl
theorem EncodedLength.sec : EncodedLength.Statement .sec := rfl
theorem EncodedLength.clv : EncodedLength.Statement .clv := rfl
theorem EncodedLength.sev : EncodedLength.Statement .sev := rfl
theorem EncodedLength.cli : EncodedLength.Statement .cli := rfl
theorem EncodedLength.sei : EncodedLength.Statement .sei := rfl
theorem EncodedLength.swi : EncodedLength.Statement .swi := rfl
theorem EncodedLength.rti : EncodedLength.Statement .rti := rfl
theorem EncodedLength.wai : EncodedLength.Statement .wai := rfl
theorem EncodedLength.slp : EncodedLength.Statement .slp := rfl
theorem EncodedLength.illegal (op : Byte) : EncodedLength.Statement (.illegal op) := rfl

end Sys2Proof.Laws
end

