-- ==== Sys2Proof/Laws/Step.lean ====
section
/-! SUPPORT. What one step can do, said once: the cases of a step that answers a next state and of one that faults, what
fetching does, and the lists of instructions and of steps. Invariants are proved from these cases. -/
namespace Sys2Proof.Machine

/-! ### Fetching -/

@[simp] theorem fetch8_fst (s : State) : (fetch8 s).1 = s.peek s.pc := rfl

/-- A fetch from a plain byte (R92). -/
theorem fetch8_plain {s : State} (h : Plain s s.pc) : fetch8 s = (s.mem.read s.pc.toNat, { s with pc := s.pc + 1 }) := by
  simp [fetch8, memRead, State.peek_plain h, State.touch_plain h]

@[simp] theorem fetchBytes_zero (s : State) : fetchBytes 0 s = ([], s) := rfl
theorem fetchBytes_succ (n : Nat) (s : State) :
    fetchBytes (n + 1) s = ((fetch8 s).1 :: (fetchBytes n (fetch8 s).2).1, (fetchBytes n (fetch8 s).2).2) := rfl

/-- Fetching moves PC and has the side effects of its reads on the peripherals; nothing else changes. -/
theorem fetchBytes_frame (n : Nat) (s : State) :
    SameRegisters { s with pc := s.pc + BitVec.ofNat 16 n } (fetchBytes n s).2 ∧ SameEngine s (fetchBytes n s).2 ∧
      (fetchBytes n s).2.mem = s.mem := by
  induction n generalizing s with
  | zero => simp [SameRegisters, SameEngine]
  | succ n ih =>
    obtain ⟨h1, h2, h3⟩ := ih (fetch8 s).2
    rw [fetchBytes_succ]
    refine ⟨?_, by simpa [SameEngine] using h2, by simpa using h3⟩
    simp only [SameRegisters, fetch8_a, fetch8_b, fetch8_x, fetch8_sp, fetch8_ccr, fetch8_pc] at h1 ⊢
    obtain ⟨h1, h2, h3, h4, h5, h6⟩ := h1
    exact ⟨h1, h2, h3, h4, by rw [h5, BitVec.add_assoc, Nat.add_comm n, BitVec.ofNat_add]; rfl, h6⟩

/-- The operand bytes of an opcode are as many as `operandCount` says, fetched in address order (R91, R92, R96). -/
theorem fetchOperands_eq (op : Byte) (s : State) :
    fetchOperands op s =
      (decodeOp op ((fetchBytes (operandCount op) s).1.getD 0 0) ((fetchBytes (operandCount op) s).1.getD 1 0),
        (fetchBytes (operandCount op) s).2) := by
  have h : operandCount op = 0 ∨ operandCount op = 1 ∨ operandCount op = 2 := by
    revert op; decide
  rcases h with h | h | h <;> simp [fetchOperands, h, fetchBytes]

/-- The instruction a step that fetches runs, and the state it runs in (R122). -/
theorem fetchExecute_eq (s : State) :
    fetchExecute s = charge (opCost s.cfg (s.peek s.pc))
      (exec (fetchOperands (s.peek s.pc) (fetch8 s).2).1 (fetchBytes (operandCount (s.peek s.pc) + 1) s).2) := by
  rw [fetchBytes_succ, show s.peek s.pc = (fetch8 s).1 from rfl]
  simp only [fetchExecute, fetchOperands_eq]

/-! ### One step -/

/-- The step in each state of the engine (R122). -/
theorem step_halted {s : State} (h : s.halted = true) : step s = .next s := by simp [step, takeStep, h]

theorem step_run {s : State} (h : s.halted = false) (hw : s.wait = .run) : step s = runningStep s := by
  simp [step, takeStep, h, hw]

theorem step_wai {s : State} (h : s.halted = false) (hw : s.wait = .wai) :
    step s = .next (match s.recognized with | some v => wakeFromWai v s | none => idleTick s) := by
  simp only [step, takeStep, h, hw, Bool.false_eq_true, if_false]
  cases s.recognized <;> rfl

theorem step_sleep_idle {s : State} (h : s.halted = false) (hw : s.wait = .sleep) (hp : s.pending = none) :
    step s = .next (idleTick s) := by
  simp [step, takeStep, h, hw, hp]

theorem step_sleep_wake {s : State} (h : s.halted = false) (hw : s.wait = .sleep) (hp : s.pending ≠ none) :
    step s = runningStep { s with wait := .run } := by
  have : s.pending.isNone = false := by cases he : s.pending <;> simp_all
  simp [step, takeStep, h, hw, this]

/-- The state in which a step that neither idles nor wakes from WAI goes on: a sleeping machine runs again (R127). -/
def Awake (s s' : State) : Prop :=
  s.halted = false ∧ (s.wait = .run ∧ s' = s ∨ s.wait = .sleep ∧ s.pending ≠ none ∧ s' = { s with wait := .run })

/-- Everything a step that answers a next state can be (R122). -/
theorem step_next_cases {s t : State} (h : step s = .next t) :
    (s.halted = true ∧ t = s) ∨
      (s.halted = false ∧ s.wait ≠ .run ∧ t = idleTick s) ∨
      (∃ v, s.halted = false ∧ s.wait = .wai ∧ s.recognized = some v ∧ t = wakeFromWai v s) ∨
      (∃ v s', Awake s s' ∧ s'.recognized = some v ∧ t = interruptEntry v s') ∨
      ∃ s' u, Awake s s' ∧ s'.recognized = none ∧
        exec (fetchOperands (s'.peek s'.pc) (fetch8 s').2).1 (fetchBytes (operandCount (s'.peek s'.pc) + 1) s').2 =
          .next u ∧ t = u.advance (opCost s'.cfg (s'.peek s'.pc)) := by
  have run : ∀ s', Awake s s' → runningStep s' = .next t →
      (∃ v s', Awake s s' ∧ s'.recognized = some v ∧ t = interruptEntry v s') ∨
      ∃ s' u, Awake s s' ∧ s'.recognized = none ∧
        exec (fetchOperands (s'.peek s'.pc) (fetch8 s').2).1 (fetchBytes (operandCount (s'.peek s'.pc) + 1) s').2 =
          .next u ∧ t = u.advance (opCost s'.cfg (s'.peek s'.pc)) := by
    intro s' ha hr
    unfold runningStep at hr
    split at hr
    · rename_i v hv
      injection hr with hr
      exact .inl ⟨v, s', ha, hv, hr.symm⟩
    · rename_i hv
      unfold checkedFetch at hr
      split at hr
      · cases hr
      · rw [fetchExecute_eq] at hr
        cases hx : exec (fetchOperands (s'.peek s'.pc) (fetch8 s').2).1
            (fetchBytes (operandCount (s'.peek s'.pc) + 1) s').2 with
        | next u =>
          rw [hx] at hr
          injection hr with hr
          exact .inr ⟨s', u, ha, hv, hx, hr.symm⟩
        | fault r => rw [hx] at hr; cases hr
        | refused r => rw [hx] at hr; cases hr
  cases hh : s.halted with
  | true =>
    rw [step_halted hh] at h
    injection h with h
    exact .inl ⟨rfl, h.symm⟩
  | false =>
    right
    cases hw : s.wait with
    | run => exact .inr (.inr (run s ⟨hh, .inl ⟨hw, rfl⟩⟩ (step_run hh hw ▸ h)))
    | wai =>
      rw [step_wai hh hw] at h
      injection h with h
      cases hv : s.recognized with
      | none => exact .inl ⟨rfl, by simp, by rw [← h, hv]⟩
      | some v => exact .inr (.inl ⟨v, rfl, rfl, rfl, by rw [← h, hv]⟩)
    | sleep =>
      by_cases hp : s.pending = none
      · rw [step_sleep_idle hh hw hp] at h
        injection h with h
        exact .inl ⟨rfl, by simp, h.symm⟩
      · rw [step_sleep_wake hh hw hp] at h
        exact .inr (.inr (run _ ⟨hh, .inr ⟨hw, hp, rfl⟩⟩ h))

/-- Everything a step that faults can be: strict mode's check of PC, or an undefined opcode (R400). -/
theorem step_fault_cases {s : State} {r : Fault} (h : step s = .fault r) :
    ∃ s', Awake s s' ∧
      (r = .invalidPC s'.pc { s' with halted := true } ∨
        exec (fetchOperands (s'.peek s'.pc) (fetch8 s').2).1 (fetchBytes (operandCount (s'.peek s'.pc) + 1) s').2 =
          .fault r) := by
  have run : ∀ s', runningStep s' = .fault r →
      r = .invalidPC s'.pc { s' with halted := true } ∨
        exec (fetchOperands (s'.peek s'.pc) (fetch8 s').2).1 (fetchBytes (operandCount (s'.peek s'.pc) + 1) s').2 =
          .fault r := by
    intro s' hr
    unfold runningStep at hr
    split at hr
    · cases hr
    · unfold checkedFetch at hr
      split at hr
      · injection hr with hr
        exact .inl hr.symm
      · rw [fetchExecute_eq] at hr
        cases hx : exec (fetchOperands (s'.peek s'.pc) (fetch8 s').2).1
            (fetchBytes (operandCount (s'.peek s'.pc) + 1) s').2 with
        | next u => rw [hx] at hr; cases hr
        | fault q => rw [hx] at hr; exact .inr hr
        | refused q => rw [hx] at hr; cases hr
  cases hh : s.halted with
  | true => rw [step_halted hh] at h; cases h
  | false =>
    cases hw : s.wait with
    | run => exact ⟨s, ⟨hh, .inl ⟨hw, rfl⟩⟩, run s (step_run hh hw ▸ h)⟩
    | wai => rw [step_wai hh hw] at h; cases h
    | sleep =>
      by_cases hp : s.pending = none
      · rw [step_sleep_idle hh hw hp] at h; cases h
      · rw [step_sleep_wake hh hw hp] at h
        exact ⟨_, ⟨hh, .inr ⟨hw, hp, rfl⟩⟩, run _ h⟩

/-! ### Lists of instructions and of steps -/

@[simp] theorem execAll_nil (s : State) : execAll [] s = .next s := rfl

theorem execAll_cons {i : Instr} {s t : State} (h : exec i s = .next t) (is : List Instr) :
    execAll (i :: is) s = execAll is t := by
  rw [execAll, h]

@[simp] theorem stepAll_zero (s : State) : stepAll 0 s = .next s := rfl

theorem stepAll_succ {s t : State} (h : step s = .next t) (n : Nat) : stepAll (n + 1) s = stepAll n t := by
  rw [stepAll, h]

@[simp] theorem deliverAll_nil (s : State) : deliverAll [] s = s := rfl
@[simp] theorem deliverAll_cons (e : Event) (es : List Event) (s : State) :
    deliverAll (e :: es) s = deliverAll es (deliver e s).2 := rfl

end Sys2Proof.Machine
end

