-- ==== Sys2Proof/Tests/Slice0.lean ====
section
/-! SUPPORT. The model's own tests: what the checks refuse, the decoding of every row of the opcode map, one step of each
instruction from the vectors of 95_test_vectors.md, the timer, serial and interrupt examples, and for every statement that
has hypotheses a state that meets them. -/
namespace Sys2Proof.Tests

open Sys2Proof.Machine Sys2Proof.Claims

/-- The start state of 95_test_vectors.md part 2. -/
def start : State := { State.reset with pc := 0x0080, sp := 0x00FF, ccr := Ccr.ofByte 0xC0 }

/-- Bytes put into the byte array from address `a` on. -/
def loadAt : Nat → List Byte → Memory → Memory
  | _, [], m => m
  | a, b :: bs, m => loadAt (a + 1) bs (m.write a b)

/-- `s` with the bytes of one instruction at its PC. -/
def loaded (bs : List Byte) (s : State) : State := { s with mem := loadAt s.pc.toNat bs s.mem }

/-- The state a result answers. -/
def nextOf : Result → Option State
  | .next t => some t
  | _ => none

/-- The state after one step with these instruction bytes at PC. -/
def ran (bs : List Byte) (s : State) : Option State := nextOf (step (loaded bs s))

/-! ### Decoding (30_encoding.md R94, R100) -/

/-- Row `0_` of R100, each byte followed by operand bytes in the order of R94. -/
theorem test_decode_row_0 :
    (decode [0x00] = .ok (.illegal 0x00, [])) ∧
    (decode [0x01] = .ok (.nop, [])) ∧
    (decode [0x02] = .ok (.illegal 0x02, [])) ∧
    (decode [0x03] = .ok (.illegal 0x03, [])) ∧
    (decode [0x04] = .ok (.lsrd, [])) ∧
    (decode [0x05] = .ok (.asld, [])) ∧
    (decode [0x06] = .ok (.tap, [])) ∧
    (decode [0x07] = .ok (.tpa, [])) ∧
    (decode [0x08] = .ok (.inx, [])) ∧
    (decode [0x09] = .ok (.dex, [])) ∧
    (decode [0x0A] = .ok (.clv, [])) ∧
    (decode [0x0B] = .ok (.sev, [])) ∧
    (decode [0x0C] = .ok (.clc, [])) ∧
    (decode [0x0D] = .ok (.sec, [])) ∧
    (decode [0x0E] = .ok (.cli, [])) ∧
    (decode [0x0F] = .ok (.sei, [])) := by
  exact ⟨rfl, rfl, rfl, rfl, rfl, rfl, rfl, rfl, rfl, rfl, rfl, rfl, rfl, rfl, rfl, rfl⟩

/-- Row `1_` of R100, each byte followed by operand bytes in the order of R94. -/
theorem test_decode_row_1 :
    (decode [0x10] = .ok (.sba, [])) ∧
    (decode [0x11] = .ok (.cba, [])) ∧
    (decode [0x12] = .ok (.illegal 0x12, [])) ∧
    (decode [0x13] = .ok (.illegal 0x13, [])) ∧
    (decode [0x14] = .ok (.illegal 0x14, [])) ∧
    (decode [0x15] = .ok (.illegal 0x15, [])) ∧
    (decode [0x16] = .ok (.tab, [])) ∧
    (decode [0x17] = .ok (.tba, [])) ∧
    (decode [0x18] = .ok (.xgdx, [])) ∧
    (decode [0x19] = .ok (.daa, [])) ∧
    (decode [0x1A] = .ok (.slp, [])) ∧
    (decode [0x1B] = .ok (.aba, [])) ∧
    (decode [0x1C] = .ok (.illegal 0x1C, [])) ∧
    (decode [0x1D] = .ok (.illegal 0x1D, [])) ∧
    (decode [0x1E] = .ok (.illegal 0x1E, [])) ∧
    (decode [0x1F] = .ok (.illegal 0x1F, [])) := by
  exact ⟨rfl, rfl, rfl, rfl, rfl, rfl, rfl, rfl, rfl, rfl, rfl, rfl, rfl, rfl, rfl, rfl⟩

/-- Row `2_` of R100, each byte followed by operand bytes in the order of R94. -/
theorem test_decode_row_2 :
    (decode [0x20, 0xFE] = .ok (.bra 0xFE, [])) ∧
    (decode [0x21, 0xFE] = .ok (.brn 0xFE, [])) ∧
    (decode [0x22, 0xFE] = .ok (.bhi 0xFE, [])) ∧
    (decode [0x23, 0xFE] = .ok (.bls 0xFE, [])) ∧
    (decode [0x24, 0xFE] = .ok (.bcc 0xFE, [])) ∧
    (decode [0x25, 0xFE] = .ok (.bcs 0xFE, [])) ∧
    (decode [0x26, 0xFE] = .ok (.bne 0xFE, [])) ∧
    (decode [0x27, 0xFE] = .ok (.beq 0xFE, [])) ∧
    (decode [0x28, 0xFE] = .ok (.bvc 0xFE, [])) ∧
    (decode [0x29, 0xFE] = .ok (.bvs 0xFE, [])) ∧
    (decode [0x2A, 0xFE] = .ok (.bpl 0xFE, [])) ∧
    (decode [0x2B, 0xFE] = .ok (.bmi 0xFE, [])) ∧
    (decode [0x2C, 0xFE] = .ok (.bge 0xFE, [])) ∧
    (decode [0x2D, 0xFE] = .ok (.blt 0xFE, [])) ∧
    (decode [0x2E, 0xFE] = .ok (.bgt 0xFE, [])) ∧
    (decode [0x2F, 0xFE] = .ok (.ble 0xFE, [])) := by
  exact ⟨rfl, rfl, rfl, rfl, rfl, rfl, rfl, rfl, rfl, rfl, rfl, rfl, rfl, rfl, rfl, rfl⟩

/-- Row `3_` of R100, each byte followed by operand bytes in the order of R94. -/
theorem test_decode_row_3 :
    (decode [0x30] = .ok (.tsx, [])) ∧
    (decode [0x31] = .ok (.ins, [])) ∧
    (decode [0x32] = .ok (.pula, [])) ∧
    (decode [0x33] = .ok (.pulb, [])) ∧
    (decode [0x34] = .ok (.des, [])) ∧
    (decode [0x35] = .ok (.txs, [])) ∧
    (decode [0x36] = .ok (.psha, [])) ∧
    (decode [0x37] = .ok (.pshb, [])) ∧
    (decode [0x38] = .ok (.pulx, [])) ∧
    (decode [0x39] = .ok (.rts, [])) ∧
    (decode [0x3A] = .ok (.abx, [])) ∧
    (decode [0x3B] = .ok (.rti, [])) ∧
    (decode [0x3C] = .ok (.pshx, [])) ∧
    (decode [0x3D] = .ok (.mul, [])) ∧
    (decode [0x3E] = .ok (.wai, [])) ∧
    (decode [0x3F] = .ok (.swi, [])) := by
  exact ⟨rfl, rfl, rfl, rfl, rfl, rfl, rfl, rfl, rfl, rfl, rfl, rfl, rfl, rfl, rfl, rfl⟩

/-- Row `4_` of R100, each byte followed by operand bytes in the order of R94. -/
theorem test_decode_row_4 :
    (decode [0x40] = .ok (.nega, [])) ∧
    (decode [0x41] = .ok (.illegal 0x41, [])) ∧
    (decode [0x42] = .ok (.illegal 0x42, [])) ∧
    (decode [0x43] = .ok (.coma, [])) ∧
    (decode [0x44] = .ok (.lsra, [])) ∧
    (decode [0x45] = .ok (.illegal 0x45, [])) ∧
    (decode [0x46] = .ok (.rora, [])) ∧
    (decode [0x47] = .ok (.asra, [])) ∧
    (decode [0x48] = .ok (.asla, [])) ∧
    (decode [0x49] = .ok (.rola, [])) ∧
    (decode [0x4A] = .ok (.deca, [])) ∧
    (decode [0x4B] = .ok (.illegal 0x4B, [])) ∧
    (decode [0x4C] = .ok (.inca, [])) ∧
    (decode [0x4D] = .ok (.tsta, [])) ∧
    (decode [0x4E] = .ok (.illegal 0x4E, [])) ∧
    (decode [0x4F] = .ok (.clra, [])) := by
  exact ⟨rfl, rfl, rfl, rfl, rfl, rfl, rfl, rfl, rfl, rfl, rfl, rfl, rfl, rfl, rfl, rfl⟩

/-- Row `5_` of R100, each byte followed by operand bytes in the order of R94. -/
theorem test_decode_row_5 :
    (decode [0x50] = .ok (.negb, [])) ∧
    (decode [0x51] = .ok (.illegal 0x51, [])) ∧
    (decode [0x52] = .ok (.illegal 0x52, [])) ∧
    (decode [0x53] = .ok (.comb, [])) ∧
    (decode [0x54] = .ok (.lsrb, [])) ∧
    (decode [0x55] = .ok (.illegal 0x55, [])) ∧
    (decode [0x56] = .ok (.rorb, [])) ∧
    (decode [0x57] = .ok (.asrb, [])) ∧
    (decode [0x58] = .ok (.aslb, [])) ∧
    (decode [0x59] = .ok (.rolb, [])) ∧
    (decode [0x5A] = .ok (.decb, [])) ∧
    (decode [0x5B] = .ok (.illegal 0x5B, [])) ∧
    (decode [0x5C] = .ok (.incb, [])) ∧
    (decode [0x5D] = .ok (.tstb, [])) ∧
    (decode [0x5E] = .ok (.illegal 0x5E, [])) ∧
    (decode [0x5F] = .ok (.clrb, [])) := by
  exact ⟨rfl, rfl, rfl, rfl, rfl, rfl, rfl, rfl, rfl, rfl, rfl, rfl, rfl, rfl, rfl, rfl⟩

/-- Row `6_` of R100, each byte followed by operand bytes in the order of R94. -/
theorem test_decode_row_6 :
    (decode [0x60, 0x10] = .ok (.neg (.idx 0x10), [])) ∧
    (decode [0x61, 0xF0, 0x10] = .ok (.aim 0xF0 (.idx 0x10), [])) ∧
    (decode [0x62, 0xF0, 0x10] = .ok (.oim 0xF0 (.idx 0x10), [])) ∧
    (decode [0x63, 0x10] = .ok (.com (.idx 0x10), [])) ∧
    (decode [0x64, 0x10] = .ok (.lsr (.idx 0x10), [])) ∧
    (decode [0x65, 0xF0, 0x10] = .ok (.eim 0xF0 (.idx 0x10), [])) ∧
    (decode [0x66, 0x10] = .ok (.ror (.idx 0x10), [])) ∧
    (decode [0x67, 0x10] = .ok (.asr (.idx 0x10), [])) ∧
    (decode [0x68, 0x10] = .ok (.asl (.idx 0x10), [])) ∧
    (decode [0x69, 0x10] = .ok (.rol (.idx 0x10), [])) ∧
    (decode [0x6A, 0x10] = .ok (.dec (.idx 0x10), [])) ∧
    (decode [0x6B, 0xF0, 0x10] = .ok (.tim 0xF0 (.idx 0x10), [])) ∧
    (decode [0x6C, 0x10] = .ok (.inc (.idx 0x10), [])) ∧
    (decode [0x6D, 0x10] = .ok (.tst (.idx 0x10), [])) ∧
    (decode [0x6E, 0x10] = .ok (.jmp (.idx 0x10), [])) ∧
    (decode [0x6F, 0x10] = .ok (.clr (.idx 0x10), [])) := by
  exact ⟨rfl, rfl, rfl, rfl, rfl, rfl, rfl, rfl, rfl, rfl, rfl, rfl, rfl, rfl, rfl, rfl⟩

/-- Row `7_` of R100, each byte followed by operand bytes in the order of R94. -/
theorem test_decode_row_7 :
    (decode [0x70, 0x12, 0x34] = .ok (.neg (.ext 0x1234), [])) ∧
    (decode [0x71, 0x0F, 0x90] = .ok (.aim 0x0F (.dir 0x90), [])) ∧
    (decode [0x72, 0x0F, 0x90] = .ok (.oim 0x0F (.dir 0x90), [])) ∧
    (decode [0x73, 0x12, 0x34] = .ok (.com (.ext 0x1234), [])) ∧
    (decode [0x74, 0x12, 0x34] = .ok (.lsr (.ext 0x1234), [])) ∧
    (decode [0x75, 0x0F, 0x90] = .ok (.eim 0x0F (.dir 0x90), [])) ∧
    (decode [0x76, 0x12, 0x34] = .ok (.ror (.ext 0x1234), [])) ∧
    (decode [0x77, 0x12, 0x34] = .ok (.asr (.ext 0x1234), [])) ∧
    (decode [0x78, 0x12, 0x34] = .ok (.asl (.ext 0x1234), [])) ∧
    (decode [0x79, 0x12, 0x34] = .ok (.rol (.ext 0x1234), [])) ∧
    (decode [0x7A, 0x12, 0x34] = .ok (.dec (.ext 0x1234), [])) ∧
    (decode [0x7B, 0x0F, 0x90] = .ok (.tim 0x0F (.dir 0x90), [])) ∧
    (decode [0x7C, 0x12, 0x34] = .ok (.inc (.ext 0x1234), [])) ∧
    (decode [0x7D, 0x12, 0x34] = .ok (.tst (.ext 0x1234), [])) ∧
    (decode [0x7E, 0x12, 0x34] = .ok (.jmp (.ext 0x1234), [])) ∧
    (decode [0x7F, 0x12, 0x34] = .ok (.clr (.ext 0x1234), [])) := by
  exact ⟨rfl, rfl, rfl, rfl, rfl, rfl, rfl, rfl, rfl, rfl, rfl, rfl, rfl, rfl, rfl, rfl⟩

/-- Row `8_` of R100, each byte followed by operand bytes in the order of R94. -/
theorem test_decode_row_8 :
    (decode [0x80, 0x5A] = .ok (.suba (.imm 0x5A), [])) ∧
    (decode [0x81, 0x5A] = .ok (.cmpa (.imm 0x5A), [])) ∧
    (decode [0x82, 0x5A] = .ok (.sbca (.imm 0x5A), [])) ∧
    (decode [0x83, 0x12, 0x34] = .ok (.subd (.imm 0x1234), [])) ∧
    (decode [0x84, 0x5A] = .ok (.anda (.imm 0x5A), [])) ∧
    (decode [0x85, 0x5A] = .ok (.bita (.imm 0x5A), [])) ∧
    (decode [0x86, 0x5A] = .ok (.ldaa (.imm 0x5A), [])) ∧
    (decode [0x87] = .ok (.illegal 0x87, [])) ∧
    (decode [0x88, 0x5A] = .ok (.eora (.imm 0x5A), [])) ∧
    (decode [0x89, 0x5A] = .ok (.adca (.imm 0x5A), [])) ∧
    (decode [0x8A, 0x5A] = .ok (.oraa (.imm 0x5A), [])) ∧
    (decode [0x8B, 0x5A] = .ok (.adda (.imm 0x5A), [])) ∧
    (decode [0x8C, 0x12, 0x34] = .ok (.cpx (.imm 0x1234), [])) ∧
    (decode [0x8D, 0xFE] = .ok (.bsr 0xFE, [])) ∧
    (decode [0x8E, 0x12, 0x34] = .ok (.lds (.imm 0x1234), [])) ∧
    (decode [0x8F] = .ok (.illegal 0x8F, [])) := by
  exact ⟨rfl, rfl, rfl, rfl, rfl, rfl, rfl, rfl, rfl, rfl, rfl, rfl, rfl, rfl, rfl, rfl⟩

/-- Row `9_` of R100, each byte followed by operand bytes in the order of R94. -/
theorem test_decode_row_9 :
    (decode [0x90, 0x90] = .ok (.suba (.mem (.dir 0x90)), [])) ∧
    (decode [0x91, 0x90] = .ok (.cmpa (.mem (.dir 0x90)), [])) ∧
    (decode [0x92, 0x90] = .ok (.sbca (.mem (.dir 0x90)), [])) ∧
    (decode [0x93, 0x90] = .ok (.subd (.mem (.dir 0x90)), [])) ∧
    (decode [0x94, 0x90] = .ok (.anda (.mem (.dir 0x90)), [])) ∧
    (decode [0x95, 0x90] = .ok (.bita (.mem (.dir 0x90)), [])) ∧
    (decode [0x96, 0x90] = .ok (.ldaa (.mem (.dir 0x90)), [])) ∧
    (decode [0x97, 0x90] = .ok (.staa (.dir 0x90), [])) ∧
    (decode [0x98, 0x90] = .ok (.eora (.mem (.dir 0x90)), [])) ∧
    (decode [0x99, 0x90] = .ok (.adca (.mem (.dir 0x90)), [])) ∧
    (decode [0x9A, 0x90] = .ok (.oraa (.mem (.dir 0x90)), [])) ∧
    (decode [0x9B, 0x90] = .ok (.adda (.mem (.dir 0x90)), [])) ∧
    (decode [0x9C, 0x90] = .ok (.cpx (.mem (.dir 0x90)), [])) ∧
    (decode [0x9D, 0x90] = .ok (.jsr (.dir 0x90), [])) ∧
    (decode [0x9E, 0x90] = .ok (.lds (.mem (.dir 0x90)), [])) ∧
    (decode [0x9F, 0x90] = .ok (.sts (.dir 0x90), [])) := by
  exact ⟨rfl, rfl, rfl, rfl, rfl, rfl, rfl, rfl, rfl, rfl, rfl, rfl, rfl, rfl, rfl, rfl⟩

/-- Row `A_` of R100, each byte followed by operand bytes in the order of R94. -/
theorem test_decode_row_A :
    (decode [0xA0, 0x10] = .ok (.suba (.mem (.idx 0x10)), [])) ∧
    (decode [0xA1, 0x10] = .ok (.cmpa (.mem (.idx 0x10)), [])) ∧
    (decode [0xA2, 0x10] = .ok (.sbca (.mem (.idx 0x10)), [])) ∧
    (decode [0xA3, 0x10] = .ok (.subd (.mem (.idx 0x10)), [])) ∧
    (decode [0xA4, 0x10] = .ok (.anda (.mem (.idx 0x10)), [])) ∧
    (decode [0xA5, 0x10] = .ok (.bita (.mem (.idx 0x10)), [])) ∧
    (decode [0xA6, 0x10] = .ok (.ldaa (.mem (.idx 0x10)), [])) ∧
    (decode [0xA7, 0x10] = .ok (.staa (.idx 0x10), [])) ∧
    (decode [0xA8, 0x10] = .ok (.eora (.mem (.idx 0x10)), [])) ∧
    (decode [0xA9, 0x10] = .ok (.adca (.mem (.idx 0x10)), [])) ∧
    (decode [0xAA, 0x10] = .ok (.oraa (.mem (.idx 0x10)), [])) ∧
    (decode [0xAB, 0x10] = .ok (.adda (.mem (.idx 0x10)), [])) ∧
    (decode [0xAC, 0x10] = .ok (.cpx (.mem (.idx 0x10)), [])) ∧
    (decode [0xAD, 0x10] = .ok (.jsr (.idx 0x10), [])) ∧
    (decode [0xAE, 0x10] = .ok (.lds (.mem (.idx 0x10)), [])) ∧
    (decode [0xAF, 0x10] = .ok (.sts (.idx 0x10), [])) := by
  exact ⟨rfl, rfl, rfl, rfl, rfl, rfl, rfl, rfl, rfl, rfl, rfl, rfl, rfl, rfl, rfl, rfl⟩

/-- Row `B_` of R100, each byte followed by operand bytes in the order of R94. -/
theorem test_decode_row_B :
    (decode [0xB0, 0x12, 0x34] = .ok (.suba (.mem (.ext 0x1234)), [])) ∧
    (decode [0xB1, 0x12, 0x34] = .ok (.cmpa (.mem (.ext 0x1234)), [])) ∧
    (decode [0xB2, 0x12, 0x34] = .ok (.sbca (.mem (.ext 0x1234)), [])) ∧
    (decode [0xB3, 0x12, 0x34] = .ok (.subd (.mem (.ext 0x1234)), [])) ∧
    (decode [0xB4, 0x12, 0x34] = .ok (.anda (.mem (.ext 0x1234)), [])) ∧
    (decode [0xB5, 0x12, 0x34] = .ok (.bita (.mem (.ext 0x1234)), [])) ∧
    (decode [0xB6, 0x12, 0x34] = .ok (.ldaa (.mem (.ext 0x1234)), [])) ∧
    (decode [0xB7, 0x12, 0x34] = .ok (.staa (.ext 0x1234), [])) ∧
    (decode [0xB8, 0x12, 0x34] = .ok (.eora (.mem (.ext 0x1234)), [])) ∧
    (decode [0xB9, 0x12, 0x34] = .ok (.adca (.mem (.ext 0x1234)), [])) ∧
    (decode [0xBA, 0x12, 0x34] = .ok (.oraa (.mem (.ext 0x1234)), [])) ∧
    (decode [0xBB, 0x12, 0x34] = .ok (.adda (.mem (.ext 0x1234)), [])) ∧
    (decode [0xBC, 0x12, 0x34] = .ok (.cpx (.mem (.ext 0x1234)), [])) ∧
    (decode [0xBD, 0x12, 0x34] = .ok (.jsr (.ext 0x1234), [])) ∧
    (decode [0xBE, 0x12, 0x34] = .ok (.lds (.mem (.ext 0x1234)), [])) ∧
    (decode [0xBF, 0x12, 0x34] = .ok (.sts (.ext 0x1234), [])) := by
  exact ⟨rfl, rfl, rfl, rfl, rfl, rfl, rfl, rfl, rfl, rfl, rfl, rfl, rfl, rfl, rfl, rfl⟩

/-- Row `C_` of R100, each byte followed by operand bytes in the order of R94. -/
theorem test_decode_row_C :
    (decode [0xC0, 0x5A] = .ok (.subb (.imm 0x5A), [])) ∧
    (decode [0xC1, 0x5A] = .ok (.cmpb (.imm 0x5A), [])) ∧
    (decode [0xC2, 0x5A] = .ok (.sbcb (.imm 0x5A), [])) ∧
    (decode [0xC3, 0x12, 0x34] = .ok (.addd (.imm 0x1234), [])) ∧
    (decode [0xC4, 0x5A] = .ok (.andb (.imm 0x5A), [])) ∧
    (decode [0xC5, 0x5A] = .ok (.bitb (.imm 0x5A), [])) ∧
    (decode [0xC6, 0x5A] = .ok (.ldab (.imm 0x5A), [])) ∧
    (decode [0xC7] = .ok (.illegal 0xC7, [])) ∧
    (decode [0xC8, 0x5A] = .ok (.eorb (.imm 0x5A), [])) ∧
    (decode [0xC9, 0x5A] = .ok (.adcb (.imm 0x5A), [])) ∧
    (decode [0xCA, 0x5A] = .ok (.orab (.imm 0x5A), [])) ∧
    (decode [0xCB, 0x5A] = .ok (.addb (.imm 0x5A), [])) ∧
    (decode [0xCC, 0x12, 0x34] = .ok (.ldd (.imm 0x1234), [])) ∧
    (decode [0xCD] = .ok (.illegal 0xCD, [])) ∧
    (decode [0xCE, 0x12, 0x34] = .ok (.ldx (.imm 0x1234), [])) ∧
    (decode [0xCF] = .ok (.illegal 0xCF, [])) := by
  exact ⟨rfl, rfl, rfl, rfl, rfl, rfl, rfl, rfl, rfl, rfl, rfl, rfl, rfl, rfl, rfl, rfl⟩

/-- Row `D_` of R100, each byte followed by operand bytes in the order of R94. -/
theorem test_decode_row_D :
    (decode [0xD0, 0x90] = .ok (.subb (.mem (.dir 0x90)), [])) ∧
    (decode [0xD1, 0x90] = .ok (.cmpb (.mem (.dir 0x90)), [])) ∧
    (decode [0xD2, 0x90] = .ok (.sbcb (.mem (.dir 0x90)), [])) ∧
    (decode [0xD3, 0x90] = .ok (.addd (.mem (.dir 0x90)), [])) ∧
    (decode [0xD4, 0x90] = .ok (.andb (.mem (.dir 0x90)), [])) ∧
    (decode [0xD5, 0x90] = .ok (.bitb (.mem (.dir 0x90)), [])) ∧
    (decode [0xD6, 0x90] = .ok (.ldab (.mem (.dir 0x90)), [])) ∧
    (decode [0xD7, 0x90] = .ok (.stab (.dir 0x90), [])) ∧
    (decode [0xD8, 0x90] = .ok (.eorb (.mem (.dir 0x90)), [])) ∧
    (decode [0xD9, 0x90] = .ok (.adcb (.mem (.dir 0x90)), [])) ∧
    (decode [0xDA, 0x90] = .ok (.orab (.mem (.dir 0x90)), [])) ∧
    (decode [0xDB, 0x90] = .ok (.addb (.mem (.dir 0x90)), [])) ∧
    (decode [0xDC, 0x90] = .ok (.ldd (.mem (.dir 0x90)), [])) ∧
    (decode [0xDD, 0x90] = .ok (.std (.dir 0x90), [])) ∧
    (decode [0xDE, 0x90] = .ok (.ldx (.mem (.dir 0x90)), [])) ∧
    (decode [0xDF, 0x90] = .ok (.stx (.dir 0x90), [])) := by
  exact ⟨rfl, rfl, rfl, rfl, rfl, rfl, rfl, rfl, rfl, rfl, rfl, rfl, rfl, rfl, rfl, rfl⟩

/-- Row `E_` of R100, each byte followed by operand bytes in the order of R94. -/
theorem test_decode_row_E :
    (decode [0xE0, 0x10] = .ok (.subb (.mem (.idx 0x10)), [])) ∧
    (decode [0xE1, 0x10] = .ok (.cmpb (.mem (.idx 0x10)), [])) ∧
    (decode [0xE2, 0x10] = .ok (.sbcb (.mem (.idx 0x10)), [])) ∧
    (decode [0xE3, 0x10] = .ok (.addd (.mem (.idx 0x10)), [])) ∧
    (decode [0xE4, 0x10] = .ok (.andb (.mem (.idx 0x10)), [])) ∧
    (decode [0xE5, 0x10] = .ok (.bitb (.mem (.idx 0x10)), [])) ∧
    (decode [0xE6, 0x10] = .ok (.ldab (.mem (.idx 0x10)), [])) ∧
    (decode [0xE7, 0x10] = .ok (.stab (.idx 0x10), [])) ∧
    (decode [0xE8, 0x10] = .ok (.eorb (.mem (.idx 0x10)), [])) ∧
    (decode [0xE9, 0x10] = .ok (.adcb (.mem (.idx 0x10)), [])) ∧
    (decode [0xEA, 0x10] = .ok (.orab (.mem (.idx 0x10)), [])) ∧
    (decode [0xEB, 0x10] = .ok (.addb (.mem (.idx 0x10)), [])) ∧
    (decode [0xEC, 0x10] = .ok (.ldd (.mem (.idx 0x10)), [])) ∧
    (decode [0xED, 0x10] = .ok (.std (.idx 0x10), [])) ∧
    (decode [0xEE, 0x10] = .ok (.ldx (.mem (.idx 0x10)), [])) ∧
    (decode [0xEF, 0x10] = .ok (.stx (.idx 0x10), [])) := by
  exact ⟨rfl, rfl, rfl, rfl, rfl, rfl, rfl, rfl, rfl, rfl, rfl, rfl, rfl, rfl, rfl, rfl⟩

/-- Row `F_` of R100, each byte followed by operand bytes in the order of R94. -/
theorem test_decode_row_F :
    (decode [0xF0, 0x12, 0x34] = .ok (.subb (.mem (.ext 0x1234)), [])) ∧
    (decode [0xF1, 0x12, 0x34] = .ok (.cmpb (.mem (.ext 0x1234)), [])) ∧
    (decode [0xF2, 0x12, 0x34] = .ok (.sbcb (.mem (.ext 0x1234)), [])) ∧
    (decode [0xF3, 0x12, 0x34] = .ok (.addd (.mem (.ext 0x1234)), [])) ∧
    (decode [0xF4, 0x12, 0x34] = .ok (.andb (.mem (.ext 0x1234)), [])) ∧
    (decode [0xF5, 0x12, 0x34] = .ok (.bitb (.mem (.ext 0x1234)), [])) ∧
    (decode [0xF6, 0x12, 0x34] = .ok (.ldab (.mem (.ext 0x1234)), [])) ∧
    (decode [0xF7, 0x12, 0x34] = .ok (.stab (.ext 0x1234), [])) ∧
    (decode [0xF8, 0x12, 0x34] = .ok (.eorb (.mem (.ext 0x1234)), [])) ∧
    (decode [0xF9, 0x12, 0x34] = .ok (.adcb (.mem (.ext 0x1234)), [])) ∧
    (decode [0xFA, 0x12, 0x34] = .ok (.orab (.mem (.ext 0x1234)), [])) ∧
    (decode [0xFB, 0x12, 0x34] = .ok (.addb (.mem (.ext 0x1234)), [])) ∧
    (decode [0xFC, 0x12, 0x34] = .ok (.ldd (.mem (.ext 0x1234)), [])) ∧
    (decode [0xFD, 0x12, 0x34] = .ok (.std (.ext 0x1234), [])) ∧
    (decode [0xFE, 0x12, 0x34] = .ok (.ldx (.mem (.ext 0x1234)), [])) ∧
    (decode [0xFF, 0x12, 0x34] = .ok (.stx (.ext 0x1234), [])) := by
  exact ⟨rfl, rfl, rfl, rfl, rfl, rfl, rfl, rfl, rfl, rfl, rfl, rfl, rfl, rfl, rfl, rfl⟩

/-! ### One step of each instruction -/

/-- LDAA #$80 (R140; 95_test_vectors.md). -/
theorem test_ldaa :
    (ran [0x86, 0x80] start).map
      (fun t => (t.a, t.pc, t.ccr.toByte, t.cycles)) = some (0x80, 0x0082, 0xC8, 2) := by decide

/-- LDAA #$00 (R140; 95_test_vectors.md). -/
theorem test_ldaa_again :
    (ran [0x86, 0x00] { start with a := 0x55, ccr := Ccr.ofByte 0xC3 }).map
      (fun t => (t.a, t.pc, t.ccr.toByte, t.cycles)) = some (0x00, 0x0082, 0xC5, 2) := by decide

/-- LDAB $90 (R140; 95_test_vectors.md). -/
theorem test_ldab :
    (ran [0xD6, 0x90] { start with ccr := Ccr.ofByte 0xCE, mem := [(0x0090, 0x7F)] }).map
      (fun t => (t.b, t.pc, t.ccr.toByte, t.cycles)) = some (0x7F, 0x0082, 0xC0, 3) := by decide

/-- LDAB $1234 (R140; 95_test_vectors.md). -/
theorem test_ldab_again :
    (ran [0xF6, 0x12, 0x34] { start with mem := [(0x1234, 0xFE)] }).map
      (fun t => (t.b, t.pc, t.ccr.toByte, t.cycles)) = some (0xFE, 0x0083, 0xC8, 4) := by decide

/-- LDD #$8000 (R141; 95_test_vectors.md). -/
theorem test_ldd :
    (ran [0xCC, 0x80, 0x00] start).map
      (fun t => (t.a, t.pc, t.ccr.toByte, t.cycles)) = some (0x80, 0x0083, 0xC8, 3) := by decide

/-- LDD $09 (FRC) (R141; 95_test_vectors.md). -/
theorem test_ldd_again :
    (ran [0xDC, 0x09] { start with frc := 0x12FF }).map
      (fun t => (t.a, t.b, t.pc, t.ccr.toByte, t.cycles)) = some (0x12, 0xFF, 0x0082, 0xC0, 4) := by decide

/-- LDX $90 (R142; 95_test_vectors.md). -/
theorem test_ldx :
    (ran [0xDE, 0x90] { start with x := 0x1111 }).map
      (fun t => (t.x, t.pc, t.ccr.toByte, t.cycles)) = some (0x0000, 0x0082, 0xC4, 4) := by decide

/-- LDX $FFFF (R142; 95_test_vectors.md). -/
theorem test_ldx_again :
    (ran [0xFE, 0xFF, 0xFF] { start with mem := [(0x0000, 0xCD), (0xFFFF, 0xAB)] }).map
      (fun t => (t.x, t.pc, t.ccr.toByte, t.cycles)) = some (0xABCD, 0x0083, 0xC8, 5) := by decide

/-- LDS #$00FF (R143; 95_test_vectors.md). -/
theorem test_lds :
    (ran [0x8E, 0x00, 0xFF] { start with sp := 0x1234 }).map
      (fun t => (t.sp, t.pc, t.ccr.toByte, t.cycles)) = some (0x00FF, 0x0083, 0xC0, 3) := by decide

/-- STAA $90 (R145; 95_test_vectors.md). -/
theorem test_staa :
    (ran [0x97, 0x90] { start with a := 0x80, ccr := Ccr.ofByte 0xC3 }).map
      (fun t => (t.pc, t.ccr.toByte, t.mem.read 0x0090, t.cycles)) = some (0x0082, 0xC9, 0x80, 3) := by decide

/-- STAB $13 (TDR) (R145; 95_test_vectors.md). -/
theorem test_stab :
    (ran [0xD7, 0x13] { start with b := 0x5A }).map
      (fun t => ((t.pc, t.ccr.toByte, t.trcsr, t.tdr), t.txPending, t.cycles)) = some ((0x0082, 0xC0, 0x00, 0x5A), true, 3) := by decide

/-- STAA $08 (TCSR) (R145; 95_test_vectors.md). -/
theorem test_staa_again :
    (ran [0x97, 0x08] { start with a := 0xFF, tcsr := 0x00 }).map
      (fun t => (t.pc, t.ccr.toByte, t.tcsr, t.cycles)) = some (0x0082, 0xC8, 0x1F, 3) := by decide

/-- STD $0B (OCR) (R146; 95_test_vectors.md). -/
theorem test_std :
    (ran [0xDD, 0x0B] { start with a := 0x12, b := 0x34, tcsr := 0x40, ocArmed := true }).map
      (fun t => ((t.pc, t.ccr.toByte, t.tcsr, t.ocr), t.ocArmed, t.cycles)) = some ((0x0082, 0xC0, 0x00, 0x1234), false, 4) := by decide

/-- STD $0B (OCR), not armed (R146; 95_test_vectors.md). -/
theorem test_std_again :
    (ran [0xDD, 0x0B] { start with a := 0x12, b := 0x34, tcsr := 0x40 }).map
      (fun t => (t.pc, t.ccr.toByte, t.ocr, t.cycles)) = some (0x0082, 0xC0, 0x1234, 4) := by decide

/-- STX $10,X (R147; 95_test_vectors.md). -/
theorem test_stx :
    (ran [0xEF, 0x10] { start with x := 0x0090 }).map
      (fun t => (t.pc, t.ccr.toByte, t.mem.read 0x00A1, t.cycles)) = some (0x0082, 0xC0, 0x90, 5) := by decide

/-- STS $0090 (R148; 95_test_vectors.md). -/
theorem test_sts :
    (ran [0xBF, 0x00, 0x90] { start with sp := 0x80FF }).map
      (fun t => (t.pc, t.ccr.toByte, t.mem.read 0x0090, t.mem.read 0x0091, t.cycles)) = some (0x0083, 0xC8, 0x80, 0xFF, 5) := by decide

/-- TAB (R161; 95_test_vectors.md). -/
theorem test_tab :
    (ran [0x16] { start with a := 0x80, b := 0x01, ccr := Ccr.ofByte 0xC3 }).map
      (fun t => (t.b, t.pc, t.ccr.toByte, t.cycles)) = some (0x80, 0x0081, 0xC9, 1) := by decide

/-- TBA (R162; 95_test_vectors.md). -/
theorem test_tba :
    (ran [0x17] { start with a := 0x80, b := 0x00 }).map
      (fun t => (t.a, t.pc, t.ccr.toByte, t.cycles)) = some (0x00, 0x0081, 0xC4, 1) := by decide

/-- TAP (R163; 95_test_vectors.md). -/
theorem test_tap :
    (ran [0x06] { start with a := 0x3F }).map
      (fun t => (t.pc, t.ccr.toByte, t.cycles)) = some (0x0081, 0xFF, 1) := by decide

/-- TAP (clears I) (R163; 95_test_vectors.md). -/
theorem test_tap_again :
    (ran [0x06] { start with a := 0x00, ccr := Ccr.ofByte 0xFF }).map
      (fun t => (t.pc, t.ccr.toByte, t.cycles)) = some (0x0081, 0xC0, 1) := by decide

/-- TPA (R164; 95_test_vectors.md). -/
theorem test_tpa :
    (ran [0x07] { start with ccr := Ccr.ofByte 0xD5 }).map
      (fun t => (t.a, t.pc, t.ccr.toByte, t.cycles)) = some (0xD5, 0x0081, 0xD5, 1) := by decide

/-- TSX (R165; 95_test_vectors.md). -/
theorem test_tsx :
    (ran [0x30] { start with sp := 0xFFFF, x := 0x1234 }).map
      (fun t => (t.x, t.pc, t.ccr.toByte, t.cycles)) = some (0x0000, 0x0081, 0xC0, 1) := by decide

/-- TXS (R166; 95_test_vectors.md). -/
theorem test_txs :
    (ran [0x35] { start with x := 0x0000 }).map
      (fun t => (t.sp, t.pc, t.ccr.toByte, t.cycles)) = some (0xFFFF, 0x0081, 0xC0, 1) := by decide

/-- XGDX (R167; 95_test_vectors.md). -/
theorem test_xgdx :
    (ran [0x18] { start with a := 0x12, b := 0x34, x := 0xABCD, ccr := Ccr.ofByte 0xFF }).map
      (fun t => ((t.a, t.b, t.x, t.pc), t.ccr.toByte, t.cycles)) = some ((0xAB, 0xCD, 0x1234, 0x0081), 0xFF, 2) := by decide

/-- PSHA (R170; 95_test_vectors.md). -/
theorem test_psha :
    (ran [0x36] { start with a := 0x77 }).map
      (fun t => (t.sp, t.pc, t.ccr.toByte, t.mem.read 0x00FF, t.cycles)) = some (0x00FE, 0x0081, 0xC0, 0x77, 4) := by decide

/-- PSHB at SP=0000 (R170; 95_test_vectors.md). -/
theorem test_pshb :
    (ran [0x37] { start with b := 0x99, sp := 0x0000 }).map
      (fun t => (t.sp, t.pc, t.ccr.toByte, t.mem.read 0x0000, t.cycles)) = some (0xFFFF, 0x0081, 0xC0, 0x99, 4) := by decide

/-- PULA (R171; 95_test_vectors.md). -/
theorem test_pula :
    (ran [0x32] { start with sp := 0x00FD, mem := [(0x00FE, 0x42)] }).map
      (fun t => (t.a, t.sp, t.pc, t.ccr.toByte, t.cycles)) = some (0x42, 0x00FE, 0x0081, 0xC0, 3) := by decide

/-- PULB at SP=FFFF (R171; 95_test_vectors.md). -/
theorem test_pulb :
    (ran [0x33] { start with sp := 0xFFFF, mem := [(0x0000, 0x24)] }).map
      (fun t => (t.b, t.sp, t.pc, t.ccr.toByte, t.cycles)) = some (0x24, 0x0000, 0x0081, 0xC0, 3) := by decide

/-- PSHX (R172; 95_test_vectors.md). -/
theorem test_pshx :
    (ran [0x3C] { start with x := 0x1234 }).map
      (fun t => ((t.sp, t.pc, t.ccr.toByte, t.mem.read 0x00FE), t.mem.read 0x00FF, t.cycles)) = some ((0x00FD, 0x0081, 0xC0, 0x12), 0x34, 5) := by decide

/-- PULX (R173; 95_test_vectors.md). -/
theorem test_pulx :
    (ran [0x38] { start with sp := 0x00FD, mem := [(0x00FE, 0xAB), (0x00FF, 0xCD)] }).map
      (fun t => (t.x, t.sp, t.pc, t.ccr.toByte, t.cycles)) = some (0xABCD, 0x00FF, 0x0081, 0xC0, 4) := by decide

/-- ABA (R194; 95_test_vectors.md). -/
theorem test_aba :
    (ran [0x1B] { start with a := 0x7F, b := 0x01 }).map
      (fun t => (t.a, t.pc, t.ccr.toByte, t.cycles)) = some (0x80, 0x0081, 0xEA, 1) := by decide

/-- ABA (R194; 95_test_vectors.md). -/
theorem test_aba_again :
    (ran [0x1B] { start with a := 0xFF, b := 0x01 }).map
      (fun t => (t.a, t.pc, t.ccr.toByte, t.cycles)) = some (0x00, 0x0081, 0xE5, 1) := by decide

/-- ADDA #$0F (R195; 95_test_vectors.md). -/
theorem test_adda :
    (ran [0x8B, 0x0F] { start with a := 0x01 }).map
      (fun t => (t.a, t.pc, t.ccr.toByte, t.cycles)) = some (0x10, 0x0082, 0xE0, 2) := by decide

/-- ADDB #$80 (R195; 95_test_vectors.md). -/
theorem test_addb :
    (ran [0xCB, 0x80] { start with b := 0x80 }).map
      (fun t => (t.b, t.pc, t.ccr.toByte, t.cycles)) = some (0x00, 0x0082, 0xC7, 2) := by decide

/-- ADCA #$00 (R196; 95_test_vectors.md). -/
theorem test_adca :
    (ran [0x89, 0x00] { start with a := 0xFF, ccr := Ccr.ofByte 0xC1 }).map
      (fun t => (t.a, t.pc, t.ccr.toByte, t.cycles)) = some (0x00, 0x0082, 0xE5, 2) := by decide

/-- ADCB #$7F (R196; 95_test_vectors.md). -/
theorem test_adcb :
    (ran [0xC9, 0x7F] { start with b := 0x00, ccr := Ccr.ofByte 0xC1 }).map
      (fun t => (t.b, t.pc, t.ccr.toByte, t.cycles)) = some (0x80, 0x0082, 0xEA, 2) := by decide

/-- ADDD #$0001 (R199; 95_test_vectors.md). -/
theorem test_addd :
    (ran [0xC3, 0x00, 0x01] { start with a := 0x7F, b := 0xFF }).map
      (fun t => (t.a, t.b, t.pc, t.ccr.toByte, t.cycles)) = some (0x80, 0x00, 0x0083, 0xCA, 3) := by decide

/-- ADDD #$8000 (R199; 95_test_vectors.md). -/
theorem test_addd_again :
    (ran [0xC3, 0x80, 0x00] { start with a := 0x80, b := 0x00, ccr := Ccr.ofByte 0xE0 }).map
      (fun t => (t.a, t.pc, t.ccr.toByte, t.cycles)) = some (0x00, 0x0083, 0xE7, 3) := by decide

/-- ABX (R208; 95_test_vectors.md). -/
theorem test_abx :
    (ran [0x3A] { start with x := 0xFFFF, b := 0xFF, ccr := Ccr.ofByte 0xC0 }).map
      (fun t => (t.x, t.pc, t.ccr.toByte, t.cycles)) = some (0x00FE, 0x0081, 0xC0, 1) := by decide

/-- SUBA #$01 (R197; 95_test_vectors.md). -/
theorem test_suba :
    (ran [0x80, 0x01] { start with a := 0x00 }).map
      (fun t => (t.a, t.pc, t.ccr.toByte, t.cycles)) = some (0xFF, 0x0082, 0xC9, 2) := by decide

/-- SUBB #$01 (R197; 95_test_vectors.md). -/
theorem test_subb :
    (ran [0xC0, 0x01] { start with b := 0x80 }).map
      (fun t => (t.b, t.pc, t.ccr.toByte, t.cycles)) = some (0x7F, 0x0082, 0xC2, 2) := by decide

/-- SBCA #$FF (R198; 95_test_vectors.md). -/
theorem test_sbca :
    (ran [0x82, 0xFF] { start with a := 0x00, ccr := Ccr.ofByte 0xC1 }).map
      (fun t => (t.pc, t.ccr.toByte, t.cycles)) = some (0x0082, 0xC5, 2) := by decide

/-- SBCB #$00 (R198; 95_test_vectors.md). -/
theorem test_sbcb :
    (ran [0xC2, 0x00] { start with b := 0x00, ccr := Ccr.ofByte 0xC1 }).map
      (fun t => (t.b, t.pc, t.ccr.toByte, t.cycles)) = some (0xFF, 0x0082, 0xC9, 2) := by decide

/-- SUBD #$0001 (R200; 95_test_vectors.md). -/
theorem test_subd :
    (ran [0x83, 0x00, 0x01] { start with a := 0x80, b := 0x00 }).map
      (fun t => (t.a, t.b, t.pc, t.ccr.toByte, t.cycles)) = some (0x7F, 0xFF, 0x0083, 0xC2, 3) := by decide

/-- SUBD #$0001 (R200; 95_test_vectors.md). -/
theorem test_subd_again :
    (ran [0x83, 0x00, 0x01] { start with a := 0x00, b := 0x00 }).map
      (fun t => (t.a, t.b, t.pc, t.ccr.toByte, t.cycles)) = some (0xFF, 0xFF, 0x0083, 0xC9, 3) := by decide

/-- SBA (R203; 95_test_vectors.md). -/
theorem test_sba :
    (ran [0x10] { start with a := 0x50, b := 0x50 }).map
      (fun t => (t.a, t.pc, t.ccr.toByte, t.cycles)) = some (0x00, 0x0081, 0xC4, 1) := by decide

/-- MUL (R207; 95_test_vectors.md). -/
theorem test_mul :
    (ran [0x3D] { start with a := 0xFF, b := 0xFF }).map
      (fun t => (t.a, t.b, t.pc, t.ccr.toByte, t.cycles)) = some (0xFE, 0x01, 0x0081, 0xC0, 7) := by decide

/-- MUL (R207; 95_test_vectors.md). -/
theorem test_mul_again :
    (ran [0x3D] { start with a := 0x10, b := 0x08, ccr := Ccr.ofByte 0xCF }).map
      (fun t => (t.a, t.b, t.pc, t.ccr.toByte, t.cycles)) = some (0x00, 0x80, 0x0081, 0xCF, 7) := by decide

/-- DAA after 0x19+0x28 (R209; 95_test_vectors.md). -/
theorem test_daa :
    (ran [0x19] { start with a := 0x41, ccr := Ccr.ofByte 0xE0 }).map
      (fun t => (t.a, t.pc, t.ccr.n, t.ccr.z, t.ccr.c, t.cycles)) = some (0x47, 0x0081, false, false, false, 2) := by decide

/-- DAA after 0x99+0x01 (R209; 95_test_vectors.md). -/
theorem test_daa_again :
    (ran [0x19] { start with a := 0x9A, ccr := Ccr.ofByte 0xC8 }).map
      (fun t => (t.a, t.pc, t.ccr.n, t.ccr.z, t.ccr.c, t.cycles)) = some (0x00, 0x0081, false, true, true, 2) := by decide

/-- NEGA (R210; 95_test_vectors.md). -/
theorem test_nega :
    (ran [0x40] { start with a := 0x80 }).map
      (fun t => (t.pc, t.ccr.toByte, t.cycles)) = some (0x0081, 0xCB, 1) := by decide

/-- NEGB (R210; 95_test_vectors.md). -/
theorem test_negb :
    (ran [0x50] { start with b := 0x00, ccr := Ccr.ofByte 0xC1 }).map
      (fun t => (t.pc, t.ccr.toByte, t.cycles)) = some (0x0081, 0xC4, 1) := by decide

/-- NEG $90 (R210; 95_test_vectors.md). -/
theorem test_neg :
    (ran [0x70, 0x00, 0x90] { start with mem := [(0x0090, 0x01)] }).map
      (fun t => (t.pc, t.ccr.toByte, t.mem.read 0x0090, t.cycles)) = some (0x0083, 0xC9, 0xFF, 6) := by decide

/-- INCA (R212; 95_test_vectors.md). -/
theorem test_inca :
    (ran [0x4C] { start with a := 0x7F, ccr := Ccr.ofByte 0xC1 }).map
      (fun t => (t.a, t.pc, t.ccr.toByte, t.cycles)) = some (0x80, 0x0081, 0xCB, 1) := by decide

/-- INC $00,X (R212; 95_test_vectors.md). -/
theorem test_inc :
    (ran [0x6C, 0x00] { start with x := 0x0090, mem := [(0x0090, 0xFF)] }).map
      (fun t => (t.pc, t.ccr.toByte, t.mem.read 0x0090, t.cycles)) = some (0x0082, 0xC4, 0x00, 6) := by decide

/-- DECB (R213; 95_test_vectors.md). -/
theorem test_decb :
    (ran [0x5A] { start with b := 0x80 }).map
      (fun t => (t.b, t.pc, t.ccr.toByte, t.cycles)) = some (0x7F, 0x0081, 0xC2, 1) := by decide

/-- DECA (R213; 95_test_vectors.md). -/
theorem test_deca :
    (ran [0x4A] { start with a := 0x00, ccr := Ccr.ofByte 0xC1 }).map
      (fun t => (t.a, t.pc, t.ccr.toByte, t.cycles)) = some (0xFF, 0x0081, 0xC9, 1) := by decide

/-- INX (R214; 95_test_vectors.md). -/
theorem test_inx :
    (ran [0x08] { start with x := 0xFFFF, ccr := Ccr.ofByte 0xCB }).map
      (fun t => (t.x, t.pc, t.ccr.toByte, t.cycles)) = some (0x0000, 0x0081, 0xCF, 1) := by decide

/-- DEX (R215; 95_test_vectors.md). -/
theorem test_dex :
    (ran [0x09] { start with x := 0x0000, ccr := Ccr.ofByte 0xC4 }).map
      (fun t => (t.x, t.pc, t.ccr.toByte, t.cycles)) = some (0xFFFF, 0x0081, 0xC0, 1) := by decide

/-- DEX (R215; 95_test_vectors.md). -/
theorem test_dex_again :
    (ran [0x09] { start with x := 0x0001 }).map
      (fun t => (t.x, t.pc, t.ccr.toByte, t.cycles)) = some (0x0000, 0x0081, 0xC4, 1) := by decide

/-- INS (R216; 95_test_vectors.md). -/
theorem test_ins :
    (ran [0x31] { start with sp := 0xFFFF, ccr := Ccr.ofByte 0xCF }).map
      (fun t => (t.sp, t.pc, t.ccr.toByte, t.cycles)) = some (0x0000, 0x0081, 0xCF, 1) := by decide

/-- DES (R217; 95_test_vectors.md). -/
theorem test_des :
    (ran [0x34] { start with sp := 0x0000 }).map
      (fun t => (t.sp, t.pc, t.ccr.toByte, t.cycles)) = some (0xFFFF, 0x0081, 0xC0, 1) := by decide

/-- CMPA #$80 (R218; 95_test_vectors.md). -/
theorem test_cmpa :
    (ran [0x81, 0x80] { start with a := 0x7F }).map
      (fun t => (t.pc, t.ccr.toByte, t.cycles)) = some (0x0082, 0xCB, 2) := by decide

/-- CMPB $90 (R218; 95_test_vectors.md). -/
theorem test_cmpb :
    (ran [0xD1, 0x90] { start with b := 0x10, mem := [(0x0090, 0x10)] }).map
      (fun t => (t.pc, t.ccr.toByte, t.cycles)) = some (0x0082, 0xC4, 3) := by decide

/-- CBA (R219; 95_test_vectors.md). -/
theorem test_cba :
    (ran [0x11] { start with a := 0x01, b := 0x02 }).map
      (fun t => (t.pc, t.ccr.toByte, t.cycles)) = some (0x0081, 0xC9, 1) := by decide

/-- CPX #$8000 (R220; 95_test_vectors.md). -/
theorem test_cpx :
    (ran [0x8C, 0x80, 0x00] { start with x := 0x7FFF }).map
      (fun t => (t.pc, t.ccr.toByte, t.cycles)) = some (0x0083, 0xCB, 3) := by decide

/-- CPX $90 (R220; 95_test_vectors.md). -/
theorem test_cpx_again :
    (ran [0x9C, 0x90] { start with x := 0x1234, mem := [(0x0090, 0x12), (0x0091, 0x34)] }).map
      (fun t => (t.pc, t.ccr.toByte, t.cycles)) = some (0x0082, 0xC4, 4) := by decide

/-- TSTA (R221; 95_test_vectors.md). -/
theorem test_tsta :
    (ran [0x4D] { start with a := 0x80, ccr := Ccr.ofByte 0xC3 }).map
      (fun t => (t.pc, t.ccr.toByte, t.cycles)) = some (0x0081, 0xC8, 1) := by decide

/-- TST $12 (RDR) (R221; 95_test_vectors.md). -/
theorem test_tst :
    (ran [0x7D, 0x00, 0x12] { start with rdr := 0x00, trcsr := 0xA0 }).map
      (fun t => (t.pc, t.ccr.toByte, t.trcsr, t.cycles)) = some (0x0083, 0xC4, 0x20, 4) := by decide

/-- ANDA #$0F (R250; 95_test_vectors.md). -/
theorem test_anda :
    (ran [0x84, 0x0F] { start with a := 0xF0, ccr := Ccr.ofByte 0xC3 }).map
      (fun t => (t.a, t.pc, t.ccr.toByte, t.cycles)) = some (0x00, 0x0082, 0xC5, 2) := by decide

/-- ANDB $90 (R250; 95_test_vectors.md). -/
theorem test_andb :
    (ran [0xD4, 0x90] { start with b := 0xFF, mem := [(0x0090, 0x80)] }).map
      (fun t => (t.b, t.pc, t.ccr.toByte, t.cycles)) = some (0x80, 0x0082, 0xC8, 3) := by decide

/-- ORAA #$80 (R251; 95_test_vectors.md). -/
theorem test_oraa :
    (ran [0x8A, 0x80] { start with a := 0x01, ccr := Ccr.ofByte 0xC2 }).map
      (fun t => (t.a, t.pc, t.ccr.toByte, t.cycles)) = some (0x81, 0x0082, 0xC8, 2) := by decide

/-- EORB #$FF (R252; 95_test_vectors.md). -/
theorem test_eorb :
    (ran [0xC8, 0xFF] { start with b := 0xFF }).map
      (fun t => (t.b, t.pc, t.ccr.toByte, t.cycles)) = some (0x00, 0x0082, 0xC4, 2) := by decide

/-- BITA #$80 (R253; 95_test_vectors.md). -/
theorem test_bita :
    (ran [0x85, 0x80] { start with a := 0x80 }).map
      (fun t => (t.pc, t.ccr.toByte, t.cycles)) = some (0x0082, 0xC8, 2) := by decide

/-- BITB $11 (TRCSR) (R253; 95_test_vectors.md). -/
theorem test_bitb :
    (ran [0xD5, 0x11] { start with b := 0x80, trcsr := 0x20 }).map
      (fun t => (t.pc, t.ccr.toByte, t.cycles)) = some (0x0082, 0xC4, 3) := by decide

/-- COMA (R258; 95_test_vectors.md). -/
theorem test_coma :
    (ran [0x43] { start with a := 0x00 }).map
      (fun t => (t.a, t.pc, t.ccr.toByte, t.cycles)) = some (0xFF, 0x0081, 0xC9, 1) := by decide

/-- COM $90 (R258; 95_test_vectors.md). -/
theorem test_com :
    (ran [0x73, 0x00, 0x90] { start with mem := [(0x0090, 0xFF)] }).map
      (fun t => (t.pc, t.ccr.toByte, t.mem.read 0x0090, t.cycles)) = some (0x0083, 0xC5, 0x00, 6) := by decide

/-- CLRA (R259; 95_test_vectors.md). -/
theorem test_clra :
    (ran [0x4F] { start with a := 0x55, ccr := Ccr.ofByte 0xFB }).map
      (fun t => (t.a, t.pc, t.ccr.toByte, t.cycles)) = some (0x00, 0x0081, 0xF4, 1) := by decide

/-- CLR $12 (RDR) (R259; 95_test_vectors.md). -/
theorem test_clr :
    (ran [0x7F, 0x00, 0x12] { start with rdr := 0x33, trcsr := 0xA0 }).map
      (fun t => (t.pc, t.ccr.toByte, t.cycles)) = some (0x0083, 0xC4, 5) := by decide

/-- ASLA (R270; 95_test_vectors.md). -/
theorem test_asla :
    (ran [0x48] { start with a := 0x80 }).map
      (fun t => (t.a, t.pc, t.ccr.toByte, t.cycles)) = some (0x00, 0x0081, 0xC7, 1) := by decide

/-- ASLB (R270; 95_test_vectors.md). -/
theorem test_aslb :
    (ran [0x58] { start with b := 0x40 }).map
      (fun t => (t.b, t.pc, t.ccr.toByte, t.cycles)) = some (0x80, 0x0081, 0xCA, 1) := by decide

/-- ASRA (R271; 95_test_vectors.md). -/
theorem test_asra :
    (ran [0x47] { start with a := 0x81 }).map
      (fun t => (t.a, t.pc, t.ccr.toByte, t.cycles)) = some (0xC0, 0x0081, 0xC9, 1) := by decide

/-- LSRB (R272; 95_test_vectors.md). -/
theorem test_lsrb :
    (ran [0x54] { start with b := 0x01 }).map
      (fun t => (t.b, t.pc, t.ccr.toByte, t.cycles)) = some (0x00, 0x0081, 0xC7, 1) := by decide

/-- ROLA (R273; 95_test_vectors.md). -/
theorem test_rola :
    (ran [0x49] { start with a := 0x80, ccr := Ccr.ofByte 0xC1 }).map
      (fun t => (t.a, t.pc, t.ccr.toByte, t.cycles)) = some (0x01, 0x0081, 0xC3, 1) := by decide

/-- RORB (R274; 95_test_vectors.md). -/
theorem test_rorb :
    (ran [0x56] { start with b := 0x01, ccr := Ccr.ofByte 0xC1 }).map
      (fun t => (t.b, t.pc, t.ccr.toByte, t.cycles)) = some (0x80, 0x0081, 0xC9, 1) := by decide

/-- ROR $90 (R274; 95_test_vectors.md). -/
theorem test_ror :
    (ran [0x76, 0x00, 0x90] { start with mem := [(0x0090, 0x02)] }).map
      (fun t => (t.pc, t.ccr.toByte, t.mem.read 0x0090, t.cycles)) = some (0x0083, 0xC0, 0x01, 6) := by decide

/-- ASLD (R275; 95_test_vectors.md). -/
theorem test_asld :
    (ran [0x05] { start with a := 0xC0, b := 0x00 }).map
      (fun t => (t.a, t.pc, t.ccr.toByte, t.cycles)) = some (0x80, 0x0081, 0xC9, 1) := by decide

/-- ASLD (R275; 95_test_vectors.md). -/
theorem test_asld_again :
    (ran [0x05] { start with a := 0x40, b := 0x00 }).map
      (fun t => (t.a, t.pc, t.ccr.toByte, t.cycles)) = some (0x80, 0x0081, 0xCA, 1) := by decide

/-- LSRD (R276; 95_test_vectors.md). -/
theorem test_lsrd :
    (ran [0x04] { start with a := 0x00, b := 0x01 }).map
      (fun t => (t.b, t.pc, t.ccr.toByte, t.cycles)) = some (0x00, 0x0081, 0xC7, 1) := by decide

/-- AIM #$F7,$08 (TCSR) (R280; 95_test_vectors.md). -/
theorem test_aim :
    (ran [0x71, 0xF7, 0x08] { start with tcsr := 0x48, ccr := Ccr.ofByte 0xD0 }).map
      (fun t => (t.pc, t.ccr.toByte, t.tcsr, t.ocArmed, t.cycles)) = some (0x0083, 0xD0, 0x40, true, 6) := by decide

/-- AIM #$0F,$90 (R280; 95_test_vectors.md). -/
theorem test_aim_again :
    (ran [0x71, 0x0F, 0x90] { start with ccr := Ccr.ofByte 0xC3, mem := [(0x0090, 0xF0)] }).map
      (fun t => (t.pc, t.ccr.toByte, t.mem.read 0x0090, t.cycles)) = some (0x0083, 0xC5, 0x00, 6) := by decide

/-- OIM #$08,$08 (TCSR) (R281; 95_test_vectors.md). -/
theorem test_oim :
    (ran [0x72, 0x08, 0x08] { start with tcsr := 0x00 }).map
      (fun t => (t.pc, t.ccr.toByte, t.tcsr, t.cycles)) = some (0x0083, 0xC0, 0x08, 6) := by decide

/-- OIM #$80,$05,X (R281; 95_test_vectors.md). -/
theorem test_oim_again :
    (ran [0x62, 0x80, 0x05] { start with x := 0x0090, mem := [(0x0095, 0x01)] }).map
      (fun t => (t.pc, t.ccr.toByte, t.mem.read 0x0095, t.cycles)) = some (0x0083, 0xC8, 0x81, 7) := by decide

/-- EIM #$FF,$90 (R282; 95_test_vectors.md). -/
theorem test_eim :
    (ran [0x75, 0xFF, 0x90] { start with mem := [(0x0090, 0xFF)] }).map
      (fun t => (t.pc, t.ccr.toByte, t.mem.read 0x0090, t.cycles)) = some (0x0083, 0xC4, 0x00, 6) := by decide

/-- TIM #$80,$11 (TRCSR) (R283; 95_test_vectors.md). -/
theorem test_tim :
    (ran [0x7B, 0x80, 0x11] { start with trcsr := 0xA0 }).map
      (fun t => (t.pc, t.ccr.toByte, t.cycles)) = some (0x0083, 0xC8, 4) := by decide

/-- TIM #$40,$11 (TRCSR) (R283; 95_test_vectors.md). -/
theorem test_tim_again :
    (ran [0x7B, 0x40, 0x11] { start with trcsr := 0xA0 }).map
      (fun t => (t.pc, t.ccr.toByte, t.cycles)) = some (0x0083, 0xC4, 4) := by decide

/-- BRA *+2+5 (R301; 95_test_vectors.md). -/
theorem test_bra :
    (ran [0x20, 0x05] start).map
      (fun t => (t.pc, t.ccr.toByte, t.cycles)) = some (0x0087, 0xC0, 3) := by decide

/-- BRA * (to itself) (R301; 95_test_vectors.md). -/
theorem test_bra_again :
    (ran [0x20, 0xFE] start).map
      (fun t => (t.ccr.toByte, t.cycles)) = some (0xC0, 3) := by decide

/-- BRN (R302; 95_test_vectors.md). -/
theorem test_brn :
    (ran [0x21, 0x7F] start).map
      (fun t => (t.pc, t.ccr.toByte, t.cycles)) = some (0x0082, 0xC0, 3) := by decide

/-- BHI (C=0,Z=0) (R303; 95_test_vectors.md). -/
theorem test_bhi :
    (ran [0x22, 0x10] start).map
      (fun t => (t.pc, t.ccr.toByte, t.cycles)) = some (0x0092, 0xC0, 3) := by decide

/-- BHI (Z=1) (R303; 95_test_vectors.md). -/
theorem test_bhi_again :
    (ran [0x22, 0x10] { start with ccr := Ccr.ofByte 0xC4 }).map
      (fun t => (t.pc, t.ccr.toByte, t.cycles)) = some (0x0082, 0xC4, 3) := by decide

/-- BLS (C=1) (R304; 95_test_vectors.md). -/
theorem test_bls :
    (ran [0x23, 0x10] { start with ccr := Ccr.ofByte 0xC1 }).map
      (fun t => (t.pc, t.ccr.toByte, t.cycles)) = some (0x0092, 0xC1, 3) := by decide

/-- BCC (C=1) (R305; 95_test_vectors.md). -/
theorem test_bcc :
    (ran [0x24, 0x10] { start with ccr := Ccr.ofByte 0xC1 }).map
      (fun t => (t.pc, t.ccr.toByte, t.cycles)) = some (0x0082, 0xC1, 3) := by decide

/-- BCS (C=1) (R306; 95_test_vectors.md). -/
theorem test_bcs :
    (ran [0x25, 0x10] { start with ccr := Ccr.ofByte 0xC1 }).map
      (fun t => (t.pc, t.ccr.toByte, t.cycles)) = some (0x0092, 0xC1, 3) := by decide

/-- BNE (Z=0) (R307; 95_test_vectors.md). -/
theorem test_bne :
    (ran [0x26, 0xFC] start).map
      (fun t => (t.pc, t.ccr.toByte, t.cycles)) = some (0x007E, 0xC0, 3) := by decide

/-- BEQ (Z=0) (R308; 95_test_vectors.md). -/
theorem test_beq :
    (ran [0x27, 0xFC] start).map
      (fun t => (t.pc, t.ccr.toByte, t.cycles)) = some (0x0082, 0xC0, 3) := by decide

/-- BVC (V=1) (R309; 95_test_vectors.md). -/
theorem test_bvc :
    (ran [0x28, 0x10] { start with ccr := Ccr.ofByte 0xC2 }).map
      (fun t => (t.pc, t.ccr.toByte, t.cycles)) = some (0x0082, 0xC2, 3) := by decide

/-- BVS (V=1) (R310; 95_test_vectors.md). -/
theorem test_bvs :
    (ran [0x29, 0x10] { start with ccr := Ccr.ofByte 0xC2 }).map
      (fun t => (t.pc, t.ccr.toByte, t.cycles)) = some (0x0092, 0xC2, 3) := by decide

/-- BPL (N=1) (R311; 95_test_vectors.md). -/
theorem test_bpl :
    (ran [0x2A, 0x10] { start with ccr := Ccr.ofByte 0xC8 }).map
      (fun t => (t.pc, t.ccr.toByte, t.cycles)) = some (0x0082, 0xC8, 3) := by decide

/-- BMI (N=1) (R312; 95_test_vectors.md). -/
theorem test_bmi :
    (ran [0x2B, 0x10] { start with ccr := Ccr.ofByte 0xC8 }).map
      (fun t => (t.pc, t.ccr.toByte, t.cycles)) = some (0x0092, 0xC8, 3) := by decide

/-- BGE (N=1,V=1) (R313; 95_test_vectors.md). -/
theorem test_bge :
    (ran [0x2C, 0x10] { start with ccr := Ccr.ofByte 0xCA }).map
      (fun t => (t.pc, t.ccr.toByte, t.cycles)) = some (0x0092, 0xCA, 3) := by decide

/-- BLT (N=1,V=0) (R314; 95_test_vectors.md). -/
theorem test_blt :
    (ran [0x2D, 0x10] { start with ccr := Ccr.ofByte 0xC8 }).map
      (fun t => (t.pc, t.ccr.toByte, t.cycles)) = some (0x0092, 0xC8, 3) := by decide

/-- BGT (Z=1) (R315; 95_test_vectors.md). -/
theorem test_bgt :
    (ran [0x2E, 0x10] { start with ccr := Ccr.ofByte 0xC4 }).map
      (fun t => (t.pc, t.ccr.toByte, t.cycles)) = some (0x0082, 0xC4, 3) := by decide

/-- BLE (N=0,V=1) (R316; 95_test_vectors.md). -/
theorem test_ble :
    (ran [0x2F, 0x10] { start with ccr := Ccr.ofByte 0xC2 }).map
      (fun t => (t.pc, t.ccr.toByte, t.cycles)) = some (0x0092, 0xC2, 3) := by decide

/-- JMP $F123 (R320; 95_test_vectors.md). -/
theorem test_jmp :
    (ran [0x7E, 0xF1, 0x23] start).map
      (fun t => (t.pc, t.ccr.toByte, t.cycles)) = some (0xF123, 0xC0, 3) := by decide

/-- JMP $FF,X (R320; 95_test_vectors.md). -/
theorem test_jmp_again :
    (ran [0x6E, 0xFF] { start with x := 0xFFFF }).map
      (fun t => (t.pc, t.ccr.toByte, t.cycles)) = some (0x00FE, 0xC0, 3) := by decide

/-- JSR $F100 (R322; 95_test_vectors.md). -/
theorem test_jsr :
    (ran [0xBD, 0xF1, 0x00] start).map
      (fun t => (t.sp, t.pc, t.ccr.toByte, t.mem.read 0x00FF, t.cycles)) = some (0x00FD, 0xF100, 0xC0, 0x83, 6) := by decide

/-- JSR $90 (R322; 95_test_vectors.md). -/
theorem test_jsr_again :
    (ran [0x9D, 0x90] start).map
      (fun t => (t.sp, t.pc, t.ccr.toByte, t.mem.read 0x00FF, t.cycles)) = some (0x00FD, 0x0090, 0xC0, 0x82, 5) := by decide

/-- BSR *+2+$10 (R323; 95_test_vectors.md). -/
theorem test_bsr :
    (ran [0x8D, 0x10] start).map
      (fun t => (t.sp, t.pc, t.ccr.toByte, t.mem.read 0x00FF, t.cycles)) = some (0x00FD, 0x0092, 0xC0, 0x82, 5) := by decide

/-- RTS (R324; 95_test_vectors.md). -/
theorem test_rts :
    (ran [0x39] { start with sp := 0x00FD, mem := [(0x00FE, 0xF0), (0x00FF, 0x0B)] }).map
      (fun t => (t.sp, t.pc, t.ccr.toByte, t.cycles)) = some (0x00FF, 0xF00B, 0xC0, 5) := by decide

/-- NOP (R341; 95_test_vectors.md). -/
theorem test_nop :
    (ran [0x01] { start with ccr := Ccr.ofByte 0xEA }).map
      (fun t => (t.pc, t.ccr.toByte, t.cycles)) = some (0x0081, 0xEA, 1) := by decide

/-- CLC (R342; 95_test_vectors.md). -/
theorem test_clc :
    (ran [0x0C] { start with ccr := Ccr.ofByte 0xFF }).map
      (fun t => (t.pc, t.ccr.toByte, t.cycles)) = some (0x0081, 0xFE, 1) := by decide

/-- SEC (R343; 95_test_vectors.md). -/
theorem test_sec :
    (ran [0x0D] start).map
      (fun t => (t.pc, t.ccr.toByte, t.cycles)) = some (0x0081, 0xC1, 1) := by decide

/-- CLV (R344; 95_test_vectors.md). -/
theorem test_clv :
    (ran [0x0A] { start with ccr := Ccr.ofByte 0xFF }).map
      (fun t => (t.pc, t.ccr.toByte, t.cycles)) = some (0x0081, 0xFD, 1) := by decide

/-- SEV (R345; 95_test_vectors.md). -/
theorem test_sev :
    (ran [0x0B] start).map
      (fun t => (t.pc, t.ccr.toByte, t.cycles)) = some (0x0081, 0xC2, 1) := by decide

/-- CLI (R346; 95_test_vectors.md). -/
theorem test_cli :
    (ran [0x0E] { start with ccr := Ccr.ofByte 0xFF }).map
      (fun t => (t.pc, t.ccr.toByte, t.cycles)) = some (0x0081, 0xEF, 1) := by decide

/-- SEI (R347; 95_test_vectors.md). -/
theorem test_sei :
    (ran [0x0F] start).map
      (fun t => (t.pc, t.ccr.toByte, t.cycles)) = some (0x0081, 0xD0, 1) := by decide

/-- SWI (R348; 95_test_vectors.md). -/
theorem test_swi :
    (ran [0x3F] { start with a := 0x12, b := 0x34, x := 0x5678, ccr := Ccr.ofByte 0xC1, mem := [(0xFFFA, 0xF2)] }).map
      (fun t => (t.sp, t.pc, t.ccr.toByte, [t.mem.read 0x00F9, t.mem.read 0x00FA, t.mem.read 0x00FB, t.mem.read 0x00FC, t.mem.read 0x00FD, t.mem.read 0x00FF], t.cycles)) = some (0x00F8, 0xF200, 0xD1, [0xC1, 0x34, 0x12, 0x56, 0x78, 0x81], 12) := by decide

/-- RTI (R349; 95_test_vectors.md). -/
theorem test_rti :
    (ran [0x3B] { start with sp := 0x00F8, ccr := Ccr.ofByte 0xD0, mem := [(0x00F9, 0xC1), (0x00FA, 0x34), (0x00FB, 0x12), (0x00FC, 0x56), (0x00FD, 0x78), (0x00FF, 0x81)] }).map
      (fun t => ((t.a, t.b, t.x, t.sp), t.pc, t.ccr.toByte, t.cycles)) = some ((0x12, 0x34, 0x5678, 0x00FF), 0x0081, 0xC1, 10) := by decide

/-- WAI (R351; 95_test_vectors.md). -/
theorem test_wai :
    (ran [0x3E] { start with a := 0x01, b := 0x02, x := 0x0304 }).map
      (fun t => ((t.sp, t.pc, t.ccr.toByte, t.wait), [t.mem.read 0x00F9, t.mem.read 0x00FA, t.mem.read 0x00FB, t.mem.read 0x00FC, t.mem.read 0x00FD, t.mem.read 0x00FF], t.cycles)) = some ((0x00F8, 0x0081, 0xC0, .wai), [0xC0, 0x02, 0x01, 0x03, 0x04, 0x81], 9) := by decide

/-- SLP (R352; 95_test_vectors.md). -/
theorem test_slp :
    (ran [0x1A] { start with ccr := Ccr.ofByte 0xD0 }).map
      (fun t => (t.pc, t.ccr.toByte, t.wait, t.cycles)) = some (0x0081, 0xD0, .sleep, 4) := by decide

/-- INCB (R212; calculated by hand from the rule). -/
theorem test_incb :
    (ran [0x5C] { start with b := 0x7F }).map
      (fun t => (t.b, t.pc, t.ccr.toByte, t.cycles)) = some (0x80, 0x0081, 0xCA, 1) := by decide

/-- LSRA (R272; calculated by hand from the rule). -/
theorem test_lsra :
    (ran [0x44] { start with a := 0x01 }).map
      (fun t => (t.a, t.pc, t.ccr.toByte, t.cycles)) = some (0x00, 0x0081, 0xC7, 1) := by decide

/-- CLRB (R259; calculated by hand from the rule). -/
theorem test_clrb :
    (ran [0x5F] { start with b := 0xFF, ccr := Ccr.ofByte 0xCB }).map
      (fun t => (t.b, t.pc, t.ccr.toByte, t.cycles)) = some (0x00, 0x0081, 0xC4, 1) := by decide

/-- ROLB (R273; calculated by hand from the rule). -/
theorem test_rolb :
    (ran [0x59] { start with b := 0x80, ccr := Ccr.ofByte 0xC1 }).map
      (fun t => (t.b, t.pc, t.ccr.toByte, t.cycles)) = some (0x01, 0x0081, 0xC3, 1) := by decide

/-- ASR (R271; calculated by hand from the rule). -/
theorem test_asr :
    (ran [0x67, 0x02] { start with x := 0x0100, mem := [(0x0102, 0x81)] }).map
      (fun t => (t.mem.read 0x0102, t.pc, t.ccr.toByte, t.cycles)) = some (0xC0, 0x0082, 0xC9, 6) := by decide

/-- ROL (R273; calculated by hand from the rule). -/
theorem test_rol :
    (ran [0x79, 0x01, 0x02] { start with ccr := Ccr.ofByte 0xC1, mem := [(0x0102, 0x40)] }).map
      (fun t => (t.mem.read 0x0102, t.pc, t.ccr.toByte, t.cycles)) = some (0x81, 0x0083, 0xCA, 6) := by decide

/-- TSTB (R221; calculated by hand from the rule). -/
theorem test_tstb :
    (ran [0x5D] { start with b := 0x80, ccr := Ccr.ofByte 0xC3 }).map
      (fun t => (t.pc, t.ccr.toByte, t.cycles)) = some (0x0081, 0xC8, 1) := by decide

/-- DEC (R213; calculated by hand from the rule). -/
theorem test_dec :
    (ran [0x6A, 0x02] { start with x := 0x0100, ccr := Ccr.ofByte 0xC1, mem := [(0x0102, 0x80)] }).map
      (fun t => (t.mem.read 0x0102, t.pc, t.ccr.toByte, t.cycles)) = some (0x7F, 0x0082, 0xC3, 6) := by decide

/-- ORAB (R251; calculated by hand from the rule). -/
theorem test_orab :
    (ran [0xCA, 0x0F] { start with b := 0x80 }).map
      (fun t => (t.b, t.pc, t.ccr.toByte, t.cycles)) = some (0x8F, 0x0082, 0xC8, 2) := by decide

/-- LSR (R272; calculated by hand from the rule). -/
theorem test_lsr :
    (ran [0x74, 0x01, 0x02] { start with ccr := Ccr.ofByte 0xC9, mem := [(0x0102, 0x80)] }).map
      (fun t => (t.mem.read 0x0102, t.pc, t.ccr.toByte, t.cycles)) = some (0x40, 0x0083, 0xC0, 6) := by decide

/-- COMB (R258; calculated by hand from the rule). -/
theorem test_comb :
    (ran [0x53] { start with b := 0x55 }).map
      (fun t => (t.b, t.pc, t.ccr.toByte, t.cycles)) = some (0xAA, 0x0081, 0xC9, 1) := by decide

/-- RORA (R274; calculated by hand from the rule). -/
theorem test_rora :
    (ran [0x46] { start with a := 0x01 }).map
      (fun t => (t.a, t.pc, t.ccr.toByte, t.cycles)) = some (0x00, 0x0081, 0xC7, 1) := by decide

/-- EORA (R252; calculated by hand from the rule). -/
theorem test_eora :
    (ran [0x88, 0xFF] { start with a := 0x0F }).map
      (fun t => (t.a, t.pc, t.ccr.toByte, t.cycles)) = some (0xF0, 0x0082, 0xC8, 2) := by decide

/-- ASL (R270; calculated by hand from the rule). -/
theorem test_asl :
    (ran [0x68, 0x02] { start with x := 0x0100, mem := [(0x0102, 0x40)] }).map
      (fun t => (t.mem.read 0x0102, t.pc, t.ccr.toByte, t.cycles)) = some (0x80, 0x0082, 0xCA, 6) := by decide

/-- ASRB (R271; calculated by hand from the rule). -/
theorem test_asrb :
    (ran [0x57] { start with b := 0x01 }).map
      (fun t => (t.b, t.pc, t.ccr.toByte, t.cycles)) = some (0x00, 0x0081, 0xC7, 1) := by decide

/-! ### The checks refuse ill-formed terms -/

/-- An undefined opcode that R112 does not list: 0x01 is NOP. -/
theorem test_wf_refuses : (Instr.illegal 0x01).wf = false ∧ (Instr.illegal 0xFF).wf = false := by decide

/-- No opcode byte, and operand bytes missing, are refused by name (R91). -/
theorem test_decode_refuses : (decode [] = .error .noOpcode) ∧ (decode [0x86] = .error (.missingOperands 0x86)) ∧
    (decode [0xBD, 0xF1] = .error (.missingOperands 0xBD)) := ⟨rfl, rfl, rfl⟩

/-- The canonical form refuses a redundant entry, a falling address and an address outside the space. -/
theorem test_memory_wf_refuses : Memory.wf [(0x90, 0x00)] = false ∧ Memory.wf [(0x91, 0x01), (0x90, 0x01)] = false ∧
    Memory.wf [(65536, 0x01)] = false := by decide

/-- The first instruction of a placed program is fetched and run, and the table's bytes read little end first. -/
theorem test_withFetchWord : decodeTableWord 8 0x01 = some .nop ∧ decodeTableWord 8 0xCE = some (.ldx (.imm 0x0000)) ∧
    decodeTableWord 24 0x3412CE = some (.ldx (.imm 0x1234)) ∧
    (nextOf (step (State.reset.withFetchWord 8 0x01))).map (fun t => (t.pc, t.cycles)) = some (0x0001, 1) := by decide

/-! ### Interrupts, waits, timer, serial interface, reset -/

/-- Instance S3 of 95_test_vectors.md, step 3: the entry stacks the CCR with I clear and clears no flag. -/
theorem test_interrupt_entry :
    (nextOf (step { start with pc := 0x0082, tcsr := 0x48, frc := 0x0002, cycles := 2, mem := [(0xFFF4, 0xF1)] })).map
      (fun t => ((t.pc, t.sp, t.ccr.toByte), (t.frc, t.cycles, t.tcsr), t.mem.read 0xFF, t.mem.read 0xF9)) =
    some ((0xF100, 0x00F8, 0xD0), (0x000E, 14, 0x48), 0x82, 0xC0) := by decide

/-- A timer source and a serial source at once: the timer's is taken (R410). -/
theorem test_priority : ({ start with tcsr := 0x48, trcsr := 0xB0 } : State).pending = some 0xFFF4 ∧
    ({ start with trcsr := 0xB0 } : State).pending = some 0xFFF0 := by decide

/-- An undefined opcode: PC one past it, `halted` set, nothing charged (R112). -/
theorem test_illegal :
    (match step (loaded [0x87] start) with
     | .fault (.illegalOpcode op addr t) => some (op, addr, t.pc, t.halted, t.cycles)
     | _ => none) = some (0x87, 0x0080, 0x0081, true, 0) := by decide

/-- Strict mode: the address after the RAM is no valid PC, the last of the RAM is one (R124). -/
theorem test_pc_valid : pcOk defaultConfig 0x0100 = false ∧ pcOk defaultConfig 0x00FF = true ∧
    pcOk defaultConfig 0xF000 = true ∧ pcOk defaultConfig 0xEFFF = false := by decide

/-- The counter passes the compare value on the last of its ticks, or one tick short of it (R431). -/
theorem test_compare_edge : compareHit 0x0005 0x0000 5 = true ∧ compareHit 0x0005 0x0000 4 = false ∧
    compareHit 0x0000 0xFFFF 1 = true ∧ compareHit 0x0000 0x0000 12 = false ∧ overflowHit 0xFFFF 1 = true := by decide

/-- OCF is cleared by reading TCSR and then writing a compare byte, and not by the write alone (R433). -/
theorem test_ocf_clearing :
    ((memWrite 0x000B 0x12 (({ start with tcsr := 0x48 } : State).touch 0x0008)).tcsr,
      (memWrite 0x000B 0x12 ({ start with tcsr := 0x48 } : State)).tcsr) = (0x08, 0x48) := by decide

/-- A byte pushed on an empty receiver is accepted, on a full one rejected and the old byte kept (R440). -/
theorem test_host_push : (hostPush 0x41 start).1 = true ∧ (hostPush 0x41 start).2.trcsr = 0xA0 ∧
    hostPush 0x42 (hostPush 0x41 start).2 = (false, (hostPush 0x41 start).2) := by decide +kernel

/-- Loading an image and a reset: PC from the vector, I set, SP and the accumulators kept (R480, R484). -/
theorem test_boot :
    (fun t : State => (t.pc, t.ccr.i, t.sp, t.trcsr, t.ocr))
      (deliverAll (bootEvents 0xFFFE [0xF1, 0x23]) { start with trcsr := 0xE0, ocr := 0x1234 }) =
    (0xF123, true, 0x00FF, 0x20, 0xFFFF) := by decide

/-- The reset state is what a reset of it leaves (R57, R480). -/
theorem test_reset_of_reset : resetEvent State.reset = State.reset := by decide +kernel

/-- The default of `PcValid` follows the regions (R6), and another can be given: at each boundary. -/
theorem test_pcValid : (pcOk defaultConfig 0x0080, pcOk defaultConfig 0x00FF, pcOk defaultConfig 0x0100,
      pcOk { defaultConfig with ramHi := 0x0100 } 0x0100, pcOk { defaultConfig with pcValid := .ranges [(0x20, 0x21)] } 0x21,
      pcOk { defaultConfig with pcValid := .ranges [(0x20, 0x21)] } 0x0080) =
    (true, true, false, true, true, false) := by decide

/-- A step that wakes from sleep and faults: `wait` is Run by then, as the algorithm of R122 has it (log 7). -/
theorem test_fault_of_a_waking_step :
    (match step { loaded [0xCF] start with wait := .sleep, tcsr := 0x48, ccr := Ccr.ofByte 0xD0 } with
      | .fault (.illegalOpcode op a t) => (op, a, t.wait, t.halted, t.pc) | _ => (0, 0, .sleep, false, 0)) =
    (0xCF, 0x0080, .run, true, 0x0081) := by decide

/-! ### States that meet the hypotheses of the statements -/

/-- `DecodeOfEncode`: a well-formed instruction of each kind the check tells apart, at boundary operands. -/
theorem witness_DecodeOfEncode : (Instr.illegal 0x00).wf = true ∧ (Instr.illegal 0xCF).wf = true ∧
    (Instr.ldx (.imm 0xFFFF)).wf = true := by decide

/-- `EncodeOfDecode`. -/
theorem witness_EncodeOfDecode : decode [0x7B, 0x0F, 0x90, 0x55] = .ok (.tim 0x0F (.dir 0x90), [0x55]) := rfl

/-- `UndefinedOpcodesAreThoseListed`: the first and the last opcode listed. -/
theorem witness_UndefinedOpcodesAreThoseListed : decodeOp 0x00 0x00 0x00 = .illegal 0x00 ∧
    decodeOp 0xCF 0x12 0x34 = .illegal 0xCF := by decide

theorem start_recognized : start.recognized = none := by decide

theorem start_fetches (bs : List Byte) : Fetches (loaded bs start) :=
  ⟨rfl, rfl, start_recognized, fun h => absurd h (show ¬(false = true) by decide)⟩

/-- `StepRunsTheDecodedInstruction`: one instruction of each length. -/
theorem witness_StepRunsTheDecodedInstruction :
    (Fetches (loaded [0x01] start) ∧ (fetchBytes 1 (loaded [0x01] start)).1 = [0x01] ∧ decode [0x01] = .ok (.nop, [])) ∧
      (Fetches (loaded [0x86, 0x80] start) ∧ (fetchBytes 2 (loaded [0x86, 0x80] start)).1 = [0x86, 0x80] ∧
        decode [0x86, 0x80] = .ok (.ldaa (.imm 0x80), [])) ∧
      (Fetches (loaded [0x71, 0x0F, 0x90] start) ∧
        (fetchBytes 3 (loaded [0x71, 0x0F, 0x90] start)).1 = [0x71, 0x0F, 0x90] ∧
        decode [0x71, 0x0F, 0x90] = .ok (.aim 0x0F (.dir 0x90), [])) :=
  ⟨⟨start_fetches _, by decide, rfl⟩, ⟨start_fetches _, by decide, rfl⟩, ⟨start_fetches _, by decide, rfl⟩⟩

/-- `FetchFromPlainBytes`: three plain bytes across the wrap of PC. -/
theorem witness_FetchFromPlainBytes : ∀ k < 3,
    Plain { start with pc := 0xFFFF } (({ start with pc := 0xFFFF } : State).pc + BitVec.ofNat 16 k) := by
  unfold Plain
  decide

/-- `HaltedUntilReset`: a halted state, and events of every kind but a reset. -/
theorem witness_HaltedUntilReset : ({ start with halted := true } : State).halted = true ∧
    Event.reset ∉ [Event.step, .push 0x41, .pull, .overrun, .poke 0x0080 0x01, .poke 0x0008 0x01] := by decide

/-- `StrictModeFaultsAtInvalidPc`: the first address after the RAM. -/
theorem witness_StrictModeFaultsAtInvalidPc :
    (fun s : State => s.halted = false ∧ s.wait = .run ∧ s.recognized = none ∧ s.cfg.strict = true ∧
      pcOk s.cfg s.pc = false ∧ ∃ p u, step s = .fault (.invalidPC p u))
      { start with pc := 0x0100, cfg := { defaultConfig with strict := true } } :=
  ⟨rfl, rfl, by decide, rfl, by decide, _, _, rfl⟩

/-- `IllegalOpcodeFaults`. -/
theorem witness_IllegalOpcodeFaults : Fetches (loaded [0xCF] start) ∧
    (loaded [0xCF] start).peek (loaded [0xCF] start).pc ∈ illegalOpcodes := ⟨start_fetches _, by decide⟩

/-- `EveryDefinedInstructionCompletes`. -/
theorem witness_EveryDefinedInstructionCompletes : ∀ op, Instr.wai ≠ .illegal op := by intro op h; cases h

/-- `InterruptIsTakenExactlyWhenUnmasked`: unmasked with a source pending, and masked with PC accepted and not. -/
theorem witness_InterruptIsTakenExactlyWhenUnmasked :
    (fun s : State => s.halted = false ∧ s.wait = .run ∧ s.ccr.i = false ∧ s.pending = some 0xFFF4)
        { start with tcsr := 0x48 } ∧
      (fun s : State => s.halted = false ∧ s.wait = .run ∧ s.ccr.i = true ∧ ¬(s.cfg.strict = true ∧ pcOk s.cfg s.pc = false))
        { start with tcsr := 0x48, ccr := Ccr.ofByte 0xD0 } ∧
      (fun s : State => s.halted = false ∧ s.wait = .run ∧ s.ccr.i = true ∧ s.cfg.strict = true ∧ pcOk s.cfg s.pc = false)
        { start with pc := 0x0100, ccr := Ccr.ofByte 0xD0, cfg := { defaultConfig with strict := true } } := by decide

theorem start_stackPlain : StackPlain start := by
  simp only [StackPlain, stackImage, List.forall_mem_cons]
  exact ⟨rfl, rfl, rfl, rfl, rfl, rfl, rfl, fun p h => by cases h⟩

/-- The stores of an entry, of a call and of the stack instructions (`StoresBytes`, `Enters`): a canonical array and plain
bytes below SP. -/
theorem witness_stacking : start.mem.wf = true ∧ ∀ p ∈ stackImage start, Plain start p.1 := ⟨rfl, start_stackPlain⟩

/-- The stores of the store and read-modify-write instructions (`StoresBytes`), a word across the wrap at 0xFFFF. -/
theorem witness_StoresBytes : start.mem.wf = true ∧
    ∀ p ∈ [(start.ea (.ext 0xFFFF), hi start.x), (start.ea (.ext 0xFFFF) + 1, lo start.x)], Plain start p.1 :=
  ⟨rfl, by simp only [List.forall_mem_cons]; exact ⟨rfl, rfl, fun p h => by cases h⟩⟩

/-- `EntryClearsNoFlag`: a pending source, the vector in the last two bytes of the space. -/
theorem witness_EntryClearsNoFlag : StackPlain { start with tcsr := 0x48 } ∧ Plain { start with tcsr := 0x48 } 0xFFFE ∧
    Plain { start with tcsr := 0x48 } (0xFFFE + 1) := ⟨start_stackPlain, rfl, rfl⟩

/-- `RtiRestoresTheRegisterFile`: a handler that changed the registers while the counter ran. -/
theorem witness_RtiRestoresTheRegisterFile : start.mem.wf = true ∧ StackPlain start ∧
    (fun u : State => u.cfg = start.cfg ∧ u.sp = (takeException 0xFFF4 start).sp ∧
      ∀ p ∈ stackImage start, u.mem.read p.1.toNat = (takeException 0xFFF4 start).mem.read p.1.toNat)
      { takeException 0xFFF4 start with a := 0x55, x := 0x1234, pc := 0xF123, frc := 0x0100 } :=
  ⟨rfl, start_stackPlain, rfl, rfl, fun _ _ => rfl⟩

/-- `WaitStatesWake`: each of its four cases; asleep with I set, a pending source still ends the sleep. -/
theorem witness_WaitStatesWake :
    (fun s : State => s.halted = false ∧ s.wait = .wai ∧ s.ccr.i = false ∧ s.pending = some 0xFFF0)
        { start with wait := .wai, trcsr := 0x24 } ∧
      (fun s : State => s.halted = false ∧ s.wait = .wai ∧ (s.ccr.i = true ∨ s.pending = none))
        { start with wait := .wai } ∧
      (fun s : State => s.halted = false ∧ s.wait = .sleep ∧ s.pending = none) { start with wait := .sleep } ∧
      (fun s : State => s.halted = false ∧ s.wait = .sleep ∧ s.pending ≠ none)
        { start with wait := .sleep, tcsr := 0x48, ccr := Ccr.ofByte 0xD0 } := by decide

/-- `WaiWithMaskSetIdlesForEver`: a source is even pending. -/
theorem witness_WaiWithMaskSetIdlesForEver :
    StuckInWai { start with wait := .wai, ccr := Ccr.ofByte 0xD0, tcsr := 0x48 } := ⟨rfl, rfl, rfl⟩

/-- `CyclesAndCounterGrowByTheCost`: an instruction that stores nothing. -/
theorem witness_CyclesAndCounterGrowByTheCost : Fetches (loaded [0x3D] start) ∧
    (fetchBytes 1 (loaded [0x3D] start)).1 = [0x3D] ∧ decode [0x3D] = .ok (.mul, []) ∧
    MissesRegisters start.cfg (storeAddrs .mul (fetchBytes 1 (loaded [0x3D] start)).2) [.frcHi, .frcLo] ∧
    ∃ t, step (loaded [0x3D] start) = .next t :=
  ⟨start_fetches _, by decide, rfl, fun _ h => (List.not_mem_nil h).elim, _, rfl⟩

/-- The same: a store to the byte after the counter. -/
theorem witness_CyclesAndCounterGrowByTheCost_store : Fetches (loaded [0x97, 0x0B] start) ∧
    (fetchBytes 2 (loaded [0x97, 0x0B] start)).1 = [0x97, 0x0B] ∧ decode [0x97, 0x0B] = .ok (.staa (.dir 0x0B), []) ∧
    (∀ s : State, storeAddrs (.staa (.dir 0x0B)) s = [0x000B]) ∧
    MissesRegisters defaultConfig [0x000B] [.frcHi, .frcLo] ∧ ∃ t, step (loaded [0x97, 0x0B] start) = .next t :=
  ⟨start_fetches _, by decide, rfl, fun _ => rfl,
    by simp only [MissesRegisters, List.forall_mem_cons]; exact ⟨⟨nofun, nofun, nofun⟩, nofun⟩, _, rfl⟩

/-- `PlainWriteThenRead`: the first and the last byte of the space. -/
theorem witness_PlainWriteThenRead : start.mem.wf = true ∧ Plain start 0x0000 ∧ Plain start 0xFFFF := ⟨rfl, rfl, rfl⟩

/-- `TimerFlagsAreClearedInTwoAccesses`: the addresses, and states with each flag set and each latch clear. -/
theorem witness_TimerFlagsAreClearedInTwoAccesses :
    regAt start.cfg 0x0008 = some .tcsr ∧ regAt start.cfg 0x000B = some .ocrHi ∧ regAt start.cfg 0x000C = some .ocrLo ∧
      regAt start.cfg 0x0009 = some .frcHi ∧ ({ start with tcsr := 0x60 } : State).ocf = true ∧
      ({ start with tcsr := 0x60 } : State).tof = true ∧ start.ocArmed = false ∧ start.tofArmed = false := by decide

/-- `WordWriteThenRead`: a word across the wrap at 0xFFFF. -/
theorem witness_WordWriteThenRead : start.mem.wf = true ∧ Plain start 0xFFFF ∧ Plain start (0xFFFF + 1) := ⟨rfl, rfl, rfl⟩

/-- `SerialRoundTrips`: the addresses, an empty and a full receiver, an enabled one, and a byte to transmit or none. -/
theorem witness_SerialRoundTrips : regAt start.cfg 0x0012 = some .rdr ∧ regAt start.cfg 0x0013 = some .tdr ∧
    start.rdrf = false ∧ ({ start with trcsr := 0xA0 } : State).rdrf = true ∧ start.txPending = false ∧
    (fun s : State => s.rdrf = false ∧ s.rie = true ∧ s.txPending = true) { start with trcsr := 0x10, txPending := true } := by
  decide

/-- `HostEventsLeaveTheRegisterFile`: an event of each clause, and a poke on both sides of the last peripheral register. -/
theorem witness_HostEventsLeaveTheRegisterFile : (Event.poke 0x0080 0x01 ≠ .step ∧ Event.poke 0x0080 0x01 ≠ .reset) ∧
    Event.reset ≠ .step ∧ Plain start 0x0014 ∧ ¬Plain start 0x0013 ∧ start.mem.wf = true := by
  unfold Plain
  decide

/-- A state with code in its RAM meets the invariant. -/
theorem loaded_inv : MachineInv (loaded [0x01] start) := by
  have h : ∀ k : Nat, k ≠ 0x80 → (loaded [0x01] start).mem.read k = Memory.unlisted := fun k hk => by
    show (if 0x80 = k then _ else _) = _
    rw [if_neg (Ne.symm hk)]
    rfl
  refine ⟨⟨rfl, fun a ha => h _ fun e => ha ?_⟩, rfl, fun e => absurd e (show ¬(false = true) by decide), fun e => absurd e (show ¬(false = true) by decide), rfl⟩
  rw [BitVec.eq_of_toNat_eq (e.trans (show 0x80 = (0x0080 : Word).toNat from rfl))]
  rfl

/-- `InvariantKeptByEveryStep`, and the next-state clause of `StepsKeepHaltedRdrAndParameters`. -/
theorem witness_InvariantKeptByEveryStep : MachineInv (loaded [0x01] start) ∧ ∃ t, step (loaded [0x01] start) = .next t :=
  ⟨loaded_inv, _, rfl⟩

/-- `InvariantKeptByEveryEvent`, and the fault clause of `StepsKeepHaltedRdrAndParameters`: the byte array lists nothing,
so the opcode fetched is 0x00. -/
theorem witness_InvariantKeptByEveryEvent : MachineInv start ∧ ∃ r, step start = .fault r :=
  ⟨⟨⟨rfl, fun _ _ => rfl⟩, rfl, fun e => absurd e (show ¬(false = true) by decide), fun e => absurd e (show ¬(false = true) by decide), rfl⟩, _, rfl⟩

/-- `InterruptMaskWriters`. -/
theorem witness_InterruptMaskWriters : ∃ t, exec .sei start = .next t := ⟨_, rfl⟩

/-- `StoresGoNowhereElse`: a store and an address beside it, a store that misses every register, and an instruction that
stores nowhere. -/
theorem witness_StoresGoNowhereElse : (∃ t, exec (.staa (.ext 0x0014)) start = .next t) ∧
    storeAddrs (.staa (.ext 0x0014)) start = [0x0014] ∧ (0x0015 : Nat) ≠ (0x0014 : Word).toNat ∧
    MissesRegisters start.cfg [0x0014] [.frcHi, .frcLo, .ocrHi, .ocrLo, .tdr, .tcsr, .trcsr] ∧
    storeAddrs .sei start = [] :=
  ⟨⟨_, rfl⟩, rfl, by decide, MissesRegisters.of_plain (by simp only [List.forall_mem_cons]; exact ⟨rfl, nofun⟩) _, rfl⟩

/-- `DecimalAdditionOfBcdBytes`: the largest digits, and the smallest. -/
theorem witness_DecimalAdditionOfBcdBytes :
    (fun s : State => IsBcd s.a ∧ IsBcd s.b) { start with a := 0x99, b := 0x00 } := by
  unfold IsBcd
  decide

/-- `BranchesAfterCompare`. -/
theorem witness_BranchesAfterCompare : ∃ t, exec (.cmpa (.imm 0x80)) start = .next t := ⟨_, rfl⟩

/-- `ReturnAfterCall`: SP at 0x0000, the pushes across the wrap. -/
theorem witness_ReturnAfterCall : (fun s : State => s.mem.wf = true ∧ Plain s s.sp ∧ Plain s (s.sp - 1))
    { start with sp := 0x0000 } := ⟨rfl, rfl, rfl⟩

/-- `ReturnFromInterrupt`: the seven bytes there are to pull. -/
theorem witness_ReturnFromInterrupt :
    (readAll ((List.range 7).map fun k => ({ start with sp := 0x00F8 } : State).sp + 1 + BitVec.ofNat 16 k)
      { start with sp := 0x00F8, mem := [(0xF9, 0xC1), (0xFF, 0x81)] }).1 =
      [0xC1, 0x00, 0x00, 0x00, 0x00, 0x00, 0x81] := by decide

end Sys2Proof.Tests
end

section
/-! PROOF. Program reads and writes of one byte as the spec writes them: the ladder of addresses of R62 and R63, with the
byte halves and the status masks in the spec's spelling. -/
namespace Sys2Proof.Machine

/-! ### The spec's spelling of bytes and masks (R8, R31, R37) -/

theorem hi_eq_shift (v : Word) : hi v = (v >>> 8).setWidth 8 := by
  apply BitVec.eq_of_toNat_eq
  rw [hi_toNat, BitVec.toNat_setWidth, BitVec.toNat_ushiftRight, Nat.shiftRight_eq_div_pow]
  have := v.isLt
  omega

theorem lo_eq_setWidth (v : Word) : lo v = v.setWidth 8 := by
  apply BitVec.eq_of_toNat_eq
  rw [lo_toNat, BitVec.toNat_setWidth]

/-- The bits kept are those of 0xE0, the bits stored those of 0x1F. -/
theorem statusWrite_eq_masks (old v : Byte) : statusWrite old v = (old &&& 0xE0#8) ||| (v &&& 0x1F#8) := by
  refine BitVec.eq_of_getLsbD_eq fun k hk => ?_
  rw [statusWrite, BitVec.getLsbD_append]
  by_cases hlow : k < 5
  · have masks : ∀ j < 5, (0xE0#8).getLsbD j = false ∧ (0x1F#8).getLsbD j = true := by decide
    obtain ⟨hkeep, hstore⟩ := masks k hlow
    simp [hlow, hkeep, hstore]
  · have masks : ∀ j < 8, ¬j < 5 → (0xE0#8).getLsbD j = true ∧ (0x1F#8).getLsbD j = false := by decide
    obtain ⟨hkeep, hstore⟩ := masks k hk hlow
    have hfield : k - 5 < 3 := by omega
    simp [hlow, hkeep, hstore, hfield, show 5 + (k - 5) = k by omega]

/-! ### A read at each peripheral register, and at a plain byte (R62) -/

section
variable {s : State} {p : Word}

theorem memRead_at_tcsr (h : regAt s.cfg p = some .tcsr) : memRead p s = (s.tcsr, s.armLatches) := by
  rw [memRead, State.peek, State.touch, h]

theorem memRead_at_frcHi (h : regAt s.cfg p = some .frcHi) : memRead p s = (hi s.frc, s.clearTof) := by
  rw [memRead, State.peek, State.touch, h]

theorem memRead_at_frcLo (h : regAt s.cfg p = some .frcLo) : memRead p s = (lo s.frc, s) := by
  rw [memRead, State.peek, State.touch, h]

theorem memRead_at_ocrHi (h : regAt s.cfg p = some .ocrHi) : memRead p s = (hi s.ocr, s) := by
  rw [memRead, State.peek, State.touch, h]

theorem memRead_at_ocrLo (h : regAt s.cfg p = some .ocrLo) : memRead p s = (lo s.ocr, s) := by
  rw [memRead, State.peek, State.touch, h]

theorem memRead_at_trcsr (h : regAt s.cfg p = some .trcsr) : memRead p s = (s.trcsr, s) := by
  rw [memRead, State.peek, State.touch, h]

theorem memRead_at_rdr (h : regAt s.cfg p = some .rdr) : memRead p s = (s.rdr, s.clearReceive) := by
  rw [memRead, State.peek, State.touch, h]

theorem memRead_at_tdr (h : regAt s.cfg p = some .tdr) : memRead p s = (s.tdr, s) := by
  rw [memRead, State.peek, State.touch, h]

theorem memRead_plain (h : Plain s p) : memRead p s = (s.mem.read p.toNat, s) := by
  rw [memRead, State.peek_plain h, State.touch_plain h]

end

/-! ### The ladder of addresses -/

/-- The tests of R62 and R63 in their order, and the branch taken when register `r`, or no register, answers: `x r`. -/
def addressLadder {α : Type} (cfg : Config) (p : Word) (x : Option PeriphReg → α) : α :=
  if p = cfg.tcsrAddr then x (some .tcsr)
  else if p = cfg.frcAddr then x (some .frcHi)
  else if p = cfg.frcAddr + 1 then x (some .frcLo)
  else if p = cfg.ocrAddr then x (some .ocrHi)
  else if p = cfg.ocrAddr + 1 then x (some .ocrLo)
  else if p = cfg.trcsrAddr then x (some .trcsr)
  else if p = cfg.rdrAddr then x (some .rdr)
  else if p = cfg.tdrAddr then x (some .tdr)
  else x none

/-- The ladder ends in the branch of what answers at the address. -/
theorem addressLadder_eq {α : Type} (cfg : Config) (p : Word) (x : Option PeriphReg → α) :
    addressLadder cfg p x = x (regAt cfg p) := by
  simp only [addressLadder, regAt, apply_ite x]

/-- What R62 gives for a read when `r` answers: the byte as it was before the side effect, and the state after it. -/
def specRead (p : Word) (s : State) : Option PeriphReg → Byte × State
  | some .tcsr =>
    (s.tcsr, { s with ocArmed := s.ocArmed || s.tcsr.getLsbD 6, tofArmed := s.tofArmed || s.tcsr.getLsbD 5 })
  | some .frcHi =>
    ((s.frc >>> 8).setWidth 8, { s with tcsr := if s.tofArmed then s.tcsr &&& 0xDF else s.tcsr, tofArmed := false })
  | some .frcLo => (s.frc.setWidth 8, s)
  | some .ocrHi => ((s.ocr >>> 8).setWidth 8, s)
  | some .ocrLo => (s.ocr.setWidth 8, s)
  | some .trcsr => (s.trcsr, s)
  | some .rdr => (s.rdr, { s with trcsr := s.trcsr &&& 0x3F })
  | some .tdr => (s.tdr, s)
  | none => (s.mem.read p.toNat, s)

/-- What R63 leaves of a write of `v` when `r` answers. -/
def specWrite (p : Word) (v : Byte) (s : State) : Option PeriphReg → State
  | some .tcsr => { s with tcsr := (s.tcsr &&& 0xE0) ||| (v &&& 0x1F) }
  | some .frcHi => { s with frc := v ++ s.frc.setWidth 8 }
  | some .frcLo => { s with frc := (s.frc >>> 8).setWidth 8 ++ v }
  | some .ocrHi =>
    { s with ocr := v ++ s.ocr.setWidth 8, ocArmed := false, tcsr := if s.ocArmed then s.tcsr &&& 0xBF else s.tcsr }
  | some .ocrLo =>
    { s with ocr := (s.ocr >>> 8).setWidth 8 ++ v, ocArmed := false,
             tcsr := if s.ocArmed then s.tcsr &&& 0xBF else s.tcsr }
  | some .trcsr => { s with trcsr := (s.trcsr &&& 0xE0) ||| (v &&& 0x1F) }
  | some .rdr => s
  | some .tdr => { s with tdr := v, trcsr := s.trcsr &&& 0xDF, txPending := true }
  | none => { s with mem := s.mem.write p.toNat v }

theorem memRead_eq_specRead (p : Word) (s : State) : memRead p s = specRead p s (regAt s.cfg p) := by
  cases h : regAt s.cfg p with
  | none => rw [memRead_plain h, specRead]
  | some r =>
    cases r with
    | tcsr => rw [memRead_at_tcsr h]; rfl
    | frcHi => rw [memRead_at_frcHi h, hi_eq_shift]; rfl
    | frcLo => rw [memRead_at_frcLo h, lo_eq_setWidth, specRead]
    | ocrHi => rw [memRead_at_ocrHi h, hi_eq_shift, specRead]
    | ocrLo => rw [memRead_at_ocrLo h, lo_eq_setWidth, specRead]
    | trcsr => rw [memRead_at_trcsr h, specRead]
    | rdr => rw [memRead_at_rdr h]; rfl
    | tdr => rw [memRead_at_tdr h, specRead]

theorem memWrite_eq_specWrite (p : Word) (v : Byte) (s : State) :
    memWrite p v s = specWrite p v s (regAt s.cfg p) := by
  cases h : regAt s.cfg p with
  | none => rw [memWrite_plain h, specWrite]
  | some r =>
    cases r with
    | tcsr => rw [memWrite_at_tcsr h, statusWrite_eq_masks]; rfl
    | frcHi => rw [memWrite_at_frcHi h, lo_eq_setWidth]; rfl
    | frcLo => rw [memWrite_at_frcLo h, hi_eq_shift]; rfl
    | ocrHi => rw [memWrite_at_ocrHi h, lo_eq_setWidth]; rfl
    | ocrLo => rw [memWrite_at_ocrLo h, hi_eq_shift]; rfl
    | trcsr => rw [memWrite_at_trcsr h, statusWrite_eq_masks]; rfl
    | rdr => rw [memWrite_at_rdr h, specWrite]
    | tdr => rw [memWrite_at_tdr h]; rfl

/-- Settles O22: the register that answers decides what the access does, and the ladder of R62 and R63 finds it. -/
theorem peripheralAccesses : Obligations.PeripheralAccesses := fun s p v =>
  ⟨(memRead_eq_specRead p s).trans (addressLadder_eq s.cfg p (specRead p s)).symm,
    (memWrite_eq_specWrite p v s).trans (addressLadder_eq s.cfg p (specWrite p v s)).symm⟩

end Sys2Proof.Machine
end

section
/-! PROOF. The undefined opcodes of R112. Operand bytes do not decide whether an opcode is undefined, so R100's map has
256 entries to compare with R112's list. -/
namespace Sys2Proof

/-- The opcode that an undefined instruction carries, and nothing for any other instruction. -/
def Instr.undefinedOpcode : Instr → Option Byte
  | .illegal op => some op
  | _ => none

theorem Instr.undefinedOpcode_eq_some_iff {i : Instr} {k : Byte} : i.undefinedOpcode = some k ↔ i = .illegal k := by
  fun_cases Instr.undefinedOpcode i with
  | case1 op => rw [Option.some.injEq, Instr.illegal.injEq]
  | case2 i hdefined => exact ⟨nofun, fun h => (hdefined k h).elim⟩

/-! ### The rows of R100 that use operand bytes -/

section
variable (b1 b2 : Byte) (n : Nat)

theorem decodeRow2_defined (hn : n < 16) : (decodeRow2 b1 n).undefinedOpcode = none := by
  interval_cases n <;> rfl

theorem decodeRow6_defined (hn : n < 16) : (decodeRow6 b1 b2 n).undefinedOpcode = none := by
  interval_cases n <;> rfl

theorem decodeRow7_defined (hn : n < 16) : (decodeRow7 b1 b2 n).undefinedOpcode = none := by
  interval_cases n <;> rfl

theorem decodeRow9_defined (hn : n < 16) : (decodeRow9 b1 n).undefinedOpcode = none := by
  interval_cases n <;> rfl

theorem decodeRowA_defined (hn : n < 16) : (decodeRowA b1 n).undefinedOpcode = none := by
  interval_cases n <;> rfl

theorem decodeRowB_defined (hn : n < 16) : (decodeRowB b1 b2 n).undefinedOpcode = none := by
  interval_cases n <;> rfl

theorem decodeRowD_defined (hn : n < 16) : (decodeRowD b1 n).undefinedOpcode = none := by
  interval_cases n <;> rfl

theorem decodeRowE_defined (hn : n < 16) : (decodeRowE b1 n).undefinedOpcode = none := by
  interval_cases n <;> rfl

theorem decodeRowF_defined (hn : n < 16) : (decodeRowF b1 b2 n).undefinedOpcode = none := by
  interval_cases n <;> rfl

/-- Row `8_` has two undefined opcodes, 0x87 and 0x8F. -/
theorem decodeRow8_undefinedOpcode (hn : n < 16) : (decodeRow8 b1 b2 n).undefinedOpcode =
    if n = 0x7 then some 0x87 else if n = 0xF then some 0x8F else none := by
  interval_cases n <;> rfl

/-- Row `C_` has three undefined opcodes, 0xC7, 0xCD and 0xCF. -/
theorem decodeRowC_undefinedOpcode (hn : n < 16) : (decodeRowC b1 b2 n).undefinedOpcode =
    if n = 0x7 then some 0xC7 else if n = 0xD then some 0xCD else if n = 0xF then some 0xCF else none := by
  interval_cases n <;> rfl

end

/-! ### The whole map -/

/-- R91: the opcode byte alone says whether it is undefined. The rows that take no operand bytes have nothing to compare;
in the others each entry is the same for all operand bytes. -/
theorem undefinedOpcode_decodeOp_operands (op b1 b2 : Byte) :
    (decodeOp op b1 b2).undefinedOpcode = (decodeOp op 0 0).undefinedOpcode := by
  have hcol : op.toNat % 16 < 16 := Nat.mod_lt _ (by decide)
  unfold decodeOp
  split
  case h_1 | h_2 | h_4 | h_5 | h_6 => rfl
  case h_3 => rw [decodeRow2_defined (hn := hcol), decodeRow2_defined (hn := hcol)]
  case h_7 => rw [decodeRow6_defined (hn := hcol), decodeRow6_defined (hn := hcol)]
  case h_8 => rw [decodeRow7_defined (hn := hcol), decodeRow7_defined (hn := hcol)]
  case h_9 => rw [decodeRow8_undefinedOpcode (hn := hcol), decodeRow8_undefinedOpcode (hn := hcol)]
  case h_10 => rw [decodeRow9_defined (hn := hcol), decodeRow9_defined (hn := hcol)]
  case h_11 => rw [decodeRowA_defined (hn := hcol), decodeRowA_defined (hn := hcol)]
  case h_12 => rw [decodeRowB_defined (hn := hcol), decodeRowB_defined (hn := hcol)]
  case h_13 => rw [decodeRowC_undefinedOpcode (hn := hcol), decodeRowC_undefinedOpcode (hn := hcol)]
  case h_14 => rw [decodeRowD_defined (hn := hcol), decodeRowD_defined (hn := hcol)]
  case h_15 => rw [decodeRowE_defined (hn := hcol), decodeRowE_defined (hn := hcol)]
  case h_16 => rw [decodeRowF_defined (hn := hcol), decodeRowF_defined (hn := hcol)]

/-- R100 beside R112, opcode by opcode. -/
theorem undefinedOpcode_decodeOp_zero :
    ∀ op : Byte, (decodeOp op 0 0).undefinedOpcode = if op ∈ illegalOpcodes then some op else none := by
  decide

/-- An opcode decodes to the undefined instruction of `k` exactly when it is `k` and R112 lists it. -/
theorem decodeOp_eq_illegal_iff {op b1 b2 k : Byte} :
    decodeOp op b1 b2 = .illegal k ↔ op ∈ illegalOpcodes ∧ k = op := by
  rw [← Instr.undefinedOpcode_eq_some_iff, undefinedOpcode_decodeOp_operands, undefinedOpcode_decodeOp_zero,
    Option.ite_none_right_eq_some, Option.some.injEq, eq_comm (a := k)]

/-- Settles O4: decoding to `illegal k` is being listed with `k` the opcode itself; the list is checked as it stands. -/
theorem undefinedOpcodesAreThoseListed : Obligations.UndefinedOpcodesAreThoseListed := by
  refine ⟨fun op b1 b2 => ⟨?listed, ?decodes⟩, fun op b1 b2 k h => ?own, by decide, rfl⟩
  case listed =>
    rintro ⟨k, h⟩
    exact (decodeOp_eq_illegal_iff.mp h).1
  case decodes => exact fun hmem => ⟨op, decodeOp_eq_illegal_iff.mpr ⟨hmem, rfl⟩⟩
  case own => exact (decodeOp_eq_illegal_iff.mp h).2

end Sys2Proof
end

section
/-! PROOF. The halted state of R121 and R483 along lists of events: no host event but the reset writes `halted`, and a
halted machine's step answers the state itself. -/
namespace Sys2Proof.Machine

/-! ### What each event does to `halted` -/

@[simp] theorem hostPush_halted (b : Byte) (s : State) : (hostPush b s).2.halted = s.halted := by
  unfold hostPush
  split <;> rfl

@[simp] theorem hostPull_halted (s : State) : (hostPull s).2.halted = s.halted := by
  unfold hostPull
  split <;> rfl

@[simp] theorem hostOverrun_halted (s : State) : (hostOverrun s).halted = s.halted := rfl

/-- A poke that is refused leaves the state as it was, so both outcomes keep `halted`. -/
@[simp] theorem settle_hostPoke_halted (a : Word) (v : Byte) (s : State) :
    (settle s (hostPoke a v s)).2.halted = s.halted := by
  unfold hostPoke
  split <;> rfl

@[simp] theorem resetEvent_halted (s : State) : (resetEvent s).halted = false := rfl

/-- R121: a halted machine's step, as the host sees it. -/
theorem deliver_step_of_halted {s : State} (h : s.halted = true) : deliver .step s = (.done, s) := by
  rw [deliver, step_halted h, settle]

theorem deliver_keeps_halted {e : Event} {s : State} (h : s.halted = true) (he : e ≠ .reset) :
    (deliver e s).2.halted = true := by
  cases e with
  | step => rwa [deliver_step_of_halted h]
  | reset => exact absurd rfl he
  | push b => exact (hostPush_halted b s).trans h
  | pull => exact (hostPull_halted s).trans h
  | overrun => exact (hostOverrun_halted s).trans h
  | poke a v => exact (settle_hostPoke_halted a v s).trans h

/-! ### Lists of events -/

/-- What every event of a list keeps, the list keeps. -/
theorem deliverAll_keeps {P : State → Prop} {es : List Event} {s : State} (hs : P s)
    (hkeeps : ∀ t, P t → ∀ e ∈ es, P (deliver e t).2) : P (deliverAll es s) :=
  List.foldlRecOn es _ hs hkeeps

theorem deliverAll_keeps_halted {es : List Event} {s : State} (h : s.halted = true) (hes : .reset ∉ es) :
    (deliverAll es s).halted = true :=
  deliverAll_keeps (P := fun t => t.halted = true) h fun _ ht _ hmem =>
    deliver_keeps_halted ht (ne_of_mem_of_not_mem hmem hes)

/-- Settles O8: a halted step changes nothing, every event but the reset keeps `halted`, and the reset clears it. -/
theorem haltedUntilReset : Obligations.HaltedUntilReset :=
  ⟨fun _ => step_halted, fun _ _ => deliverAll_keeps_halted, resetEvent_halted⟩

end Sys2Proof.Machine
end

section
/-! PROOF. Loads, stores, transfers and stack instructions (41_load_store_transfer.md), from the shapes they share: a
register filled from an operand, program writes with the flags of the value moved, pushes, pulls. -/
namespace Sys2Proof.Machine

open Sys2Proof.Claims

/-! ### The flags of a value moved -/

/-- N is the sign of the number the bits stand for (R190). -/
theorem msb_byte_eq (v : Byte) : v[7] = decide (v.toInt < 0) := by
  rw [← BitVec.msb_eq_toInt, BitVec.msb_eq_getLsbD_last]; rfl

theorem msb_word_eq (v : Word) : v[15] = decide (v.toInt < 0) := by
  rw [← BitVec.msb_eq_toInt, BitVec.msb_eq_getLsbD_last]; rfl

/-- Z is 1 exactly when that number is 0 (R190). -/
theorem decide_eq_zero_toNat {w : Nat} (v : BitVec w) : decide (v = 0#w) = decide (v.toNat = 0) :=
  decide_eq_decide.mpr (by simp [BitVec.toNat_eq])

theorem move8_eq_moved8 (f : Ccr) (v : Byte) : f.move8 v = moved8 f v := by
  rw [Ccr.move8, Ccr.setNZ8, msb_byte_eq, decide_eq_zero_toNat, moved8]

theorem move16_eq_moved16 (f : Ccr) (v : Word) : f.move16 v = moved16 f v := by
  rw [Ccr.move16, Ccr.setNZ16, msb_word_eq, decide_eq_zero_toNat, moved16]

/-! ### Changes of the register file alone

`ReadsOnly u u t` says that `t` differs from `u` in the register file at most. -/

theorem readsOnly_refl (s : State) : ReadsOnly s s s :=
  ⟨SameMemory.refl s, SameEngine.refl s, SamePeripherals.refl s⟩

/-- A change of registers after the operand reads. -/
theorem readsOnly_then_registers {s u t : State} (hreads : ReadsOnly s u u) (hregs : ReadsOnly u u t) :
    ReadsOnly s u t := by
  obtain ⟨hmem, ⟨hwait, hhalted, hcycles, hcfg, hfree⟩, -⟩ := hreads
  obtain ⟨hmem', ⟨hwait', hhalted', hcycles', hcfg', hfree'⟩, hper⟩ := hregs
  exact ⟨fun k => (hmem' k).trans (hmem k),
    ⟨hwait'.trans hwait, hhalted'.trans hhalted, hcycles'.trans hcycles, hcfg'.trans hcfg, hfree'.trans hfree⟩, hper⟩

theorem afterSrc8_readsOnly (src : Src8) (s : State) : ReadsOnly s (afterSrc8 src s) (afterSrc8 src s) := by
  obtain ⟨-, hengine, hmem⟩ := afterSrc8_frame src s
  exact ⟨fun k => by rw [hmem], hengine, SamePeripherals.refl _⟩

theorem afterSrc16_readsOnly (src : Src16) (s : State) : ReadsOnly s (afterSrc16 src s) (afterSrc16 src s) := by
  obtain ⟨-, hengine, hmem⟩ := afterSrc16_frame src s
  exact ⟨fun k => by rw [hmem], hengine, SamePeripherals.refl _⟩

theorem setAcc_readsOnly (s : State) (r : Acc) (v : Byte) : ReadsOnly s s (s.setAcc r v) := by
  cases r <;> exact readsOnly_refl s

theorem SameRegisters.setAcc {s t : State} (h : SameRegisters s t) (r : Acc) (v : Byte) :
    SameRegisters (s.setAcc r v) (t.setAcc r v) := by
  obtain ⟨ha, hb, hrest⟩ := h
  cases r with
  | A => exact ⟨rfl, hb, hrest⟩
  | B => exact ⟨ha, rfl, hrest⟩

theorem SameRegisters.setCcr {s t : State} (h : SameRegisters s t) (f : Ccr) :
    SameRegisters { s with ccr := f } { t with ccr := f } := by
  obtain ⟨ha, hb, hx, hsp, hpc, -⟩ := h
  exact ⟨ha, hb, hx, hsp, hpc, rfl⟩

/-! ### Loads (R140 to R143) -/

theorem loadAcc_eq (r : Acc) (src : Src8) (s : State) : loadAcc r src s =
    ({ afterSrc8 src s with ccr := moved8 s.ccr (srcValue8 src s) } : State).setAcc r (srcValue8 src s) := by
  rw [loadAcc, opnd8_eq, move8_eq_moved8]
  cases r <;> rfl

theorem loadsAcc_of_exec {i : Src8 → Instr} {r : Acc} (hexec : ∀ src s, exec (i src) s = .next (loadAcc r src s)) :
    LoadsAcc i r := by
  intro src s
  refine ⟨_, hexec src s, ?_⟩
  rw [loadAcc_eq, State.acc_setAcc, State.setAcc_ccr]
  exact ⟨rfl, rfl, ((afterSrc8_frame src s).1.setCcr _).setAcc r _,
    readsOnly_then_registers (afterSrc8_readsOnly src s) (setAcc_readsOnly _ r _)⟩

/-- A load through `put` is one once `put` depends on, and changes, the register file alone. -/
theorem loadsWord_of_exec {i : Src16 → Instr} {put : State → Word → State}
    (hexec : ∀ src s, exec (i src) s =
      .next { put (opnd16 src s).2 (opnd16 src s).1 with ccr := s.ccr.move16 (opnd16 src s).1 })
    (hregs : ∀ s u v f, SameRegisters s u → SameRegisters (put { s with ccr := f } v) { put u v with ccr := f })
    (hrest : ∀ u v f, ReadsOnly u u { put u v with ccr := f }) : LoadsWord i put := by
  intro src s
  refine ⟨_, hexec src s, ?_⟩
  rw [opnd16_eq, move16_eq_moved16]
  exact ⟨hregs _ _ _ _ (afterSrc16_frame src s).1, readsOnly_then_registers (afterSrc16_readsOnly src s) (hrest _ _ _)⟩

/-- Settles O35: the operand reads keep the register file, and each load then changes nothing else. -/
theorem loadsMoveTheSource : Obligations.LoadsMoveTheSource := by
  refine ⟨loadsAcc_of_exec fun _ _ => rfl, loadsAcc_of_exec fun _ _ => rfl,
    loadsWord_of_exec (fun _ _ => rfl) ?ldd fun u _ _ => readsOnly_refl u,
    loadsWord_of_exec (fun _ _ => rfl) ?ldx fun u _ _ => readsOnly_refl u,
    loadsWord_of_exec (fun _ _ => rfl) ?lds fun u _ _ => readsOnly_refl u⟩
  case ldd =>
    intro s u v f ⟨_, _, hx, hsp, hpc, _⟩
    exact ⟨rfl, rfl, hx, hsp, hpc, rfl⟩
  case ldx =>
    intro s u v f ⟨ha, hb, _, hsp, hpc, _⟩
    exact ⟨ha, hb, rfl, hsp, hpc, rfl⟩
  case lds =>
    intro s u v f ⟨ha, hb, hx, _, hpc, _⟩
    exact ⟨ha, hb, hx, rfl, hpc, rfl⟩

/-! ### Program writes to different addresses (R63, R64) -/

/-- A state whose byte array and peripherals are those the writes `w` leave has them stored. -/
theorem storesBytes_of_writeAll {s u t : State} {w : List (Word × Byte)} (hdistinct : (w.map Prod.fst).Nodup)
    (hmem : t.mem = (writeAll w s).mem) (hper : SamePeripherals (writeAll w u) t) : StoresBytes s u t w := by
  refine ⟨fun hwf p hp hplain => ?_, fun k hk => ?_, hper⟩
  · rw [hmem, writeAll_read hwf hdistinct hp hplain]
  · rw [hmem, writeAll_read_ne w s hk]

theorem writeAll_setCcr_stores {w : List (Word × Byte)} (hdistinct : (w.map Prod.fst).Nodup) (s : State) (f : Ccr) :
    SameRegisters { s with ccr := f } (writeAll w { s with ccr := f }) ∧ SameEngine s (writeAll w { s with ccr := f }) ∧
      StoresBytes s s (writeAll w { s with ccr := f }) w := by
  obtain ⟨hregs, hengine⟩ := writeAll_frame w { s with ccr := f }
  have hmem : (writeAll w { s with ccr := f }).mem = (writeAll w s).mem := writeAll_mem_congr w rfl rfl
  have hper : SamePeripherals (writeAll w s) (writeAll w { s with ccr := f }) :=
    writeAll_congr w rfl (SamePeripherals.refl s)
  exact ⟨hregs, hengine, storesBytes_of_writeAll hdistinct hmem hper⟩

theorem writeAll_setSp_stores {w : List (Word × Byte)} (hdistinct : (w.map Prod.fst).Nodup) (s : State) (q : Word) :
    SameRegisters { s with sp := q } { writeAll w s with sp := q } ∧ SameEngine s { writeAll w s with sp := q } ∧
      StoresBytes s s { writeAll w s with sp := q } w := by
  obtain ⟨⟨ha, hb, hx, -, hpc, hccr⟩, hengine⟩ := writeAll_frame w s
  exact ⟨⟨ha, hb, hx, rfl, hpc, hccr⟩, hengine, storesBytes_of_writeAll hdistinct rfl (SamePeripherals.refl _)⟩

theorem addresses_nodup_single (p : Word) (v : Byte) : (([(p, v)]).map Prod.fst).Nodup := List.nodup_singleton p

theorem addresses_nodup_pair {p q : Word} (h : p ≠ q) (v w : Byte) : (([(p, v), (q, w)]).map Prod.fst).Nodup := by
  simpa using h

/-- Neighbouring addresses differ, also across the wrap at 0xFFFF (R64, R70). -/
theorem add_one_ne (p : Word) : p ≠ p + 1 := by bv_omega

theorem sub_one_ne (p : Word) : p ≠ p - 1 := by bv_omega

/-! ### Stores (R145 to R148) -/

theorem store8_eq (v : Byte) (m : Mode) (s : State) :
    store8 v m s = writeAll [(s.ea m, v)] { s with ccr := moved8 s.ccr v } := by
  rw [store8, move8_eq_moved8]; rfl

theorem store16_eq (v : Word) (m : Mode) (s : State) :
    store16 v m s = writeAll [(s.ea m, hi v), (s.ea m + 1, lo v)] { s with ccr := moved16 s.ccr v } := by
  rw [store16, move16_eq_moved16]; rfl

theorem storesAcc_of_exec {i : Mode → Instr} {get : State → Byte}
    (hexec : ∀ m s, exec (i m) s = .next (store8 (get s) m s)) : StoresAcc i get := by
  intro m s
  refine ⟨_, hexec m s, ?_⟩
  rw [store8_eq]
  exact writeAll_setCcr_stores (addresses_nodup_single _ _) s _

theorem storesWord_of_exec {i : Mode → Instr} {get : State → Word}
    (hexec : ∀ m s, exec (i m) s = .next (store16 (get s) m s)) : StoresWord i get := by
  intro m s
  refine ⟨_, hexec m s, ?_⟩
  rw [store16_eq]
  exact writeAll_setCcr_stores (addresses_nodup_pair (add_one_ne _) _ _) s _

/-- Settles O36: each store is its program writes after the flags, and these reach nothing but what answers at their
addresses. -/
theorem storesMoveTheRegister : Obligations.StoresMoveTheRegister :=
  ⟨storesAcc_of_exec fun _ _ => rfl, storesAcc_of_exec fun _ _ => rfl, storesWord_of_exec fun _ _ => rfl,
    storesWord_of_exec fun _ _ => rfl, storesWord_of_exec fun _ _ => rfl⟩

/-! ### Pushes (R170, R172) -/

theorem pushes_byte_of_exec {i : Instr} {get : State → Byte} (hexec : ∀ s, exec i s = .next (push8 (get s) s)) :
    Pushes i fun s => [get s] := by
  intro s
  refine ⟨_, hexec s, ?_⟩
  have hw : [get s].zipIdx.map (fun p => (s.sp - BitVec.ofNat 16 p.2, p.1)) = [(s.sp, get s)] := by simp
  rw [hw, push8_eq]
  exact writeAll_setSp_stores (addresses_nodup_single _ _) s _

theorem pushes_word_of_exec {i : Instr} {get : State → Word} (hexec : ∀ s, exec i s = .next (push16 (get s) s)) :
    Pushes i fun s => [lo (get s), hi (get s)] := by
  intro s
  refine ⟨_, hexec s, ?_⟩
  have hw : [lo (get s), hi (get s)].zipIdx.map (fun p => (s.sp - BitVec.ofNat 16 p.2, p.1)) =
      [(s.sp, lo (get s)), (s.sp - 1, hi (get s))] := by simp
  rw [hw, push16_eq]
  exact writeAll_setSp_stores (addresses_nodup_pair (sub_one_ne _) _ _) s _

/-! ### Pulls (R171, R173) -/

theorem pull8_readsOnly (s : State) : ReadsOnly s (s.touch (s.sp + 1)) (pull8 s).2 := by
  obtain ⟨-, -, -, hper⟩ := pull8_spec (SameForAccess.refl s)
  exact ⟨fun k => by rw [pull8_mem], by simp [SameEngine], hper⟩

theorem pull8_sameRegisters (s : State) : SameRegisters { s with sp := s.sp + 1 } (pull8 s).2 := by
  simp [SameRegisters]

theorem pull16_readsOnly (s : State) :
    ReadsOnly s ((s.touch (s.sp + 1)).touch (s.sp + 2)) (pull16 s).2 := by
  obtain ⟨-, -, -, hper⟩ := pull16_spec (SameForAccess.refl s)
  rw [memRead16_eq, BitVec.add_assoc] at hper
  exact ⟨fun k => by rw [pull16_mem], by simp [SameEngine], hper⟩

theorem pull16_value (s : State) : (pull16 s).1 = vectorValue (s.sp + 1) s :=
  (pull16_spec (SameForAccess.refl s)).1

theorem pullsAcc_of_exec {i : Instr} {r : Acc}
    (hexec : ∀ s, exec i s = .next ((pull8 s).2.setAcc r (pull8 s).1)) : PullsAcc i r := by
  intro s
  refine ⟨_, hexec s, (pull8_sameRegisters s).setAcc r _, ?_⟩
  cases r <;> exact pull8_readsOnly s

/-- Settles O38: a push is program writes down from SP, a pull program reads up from SP + 1, and SP moves past them. -/
theorem pushesAndPulls : Obligations.PushesAndPulls := by
  refine ⟨pushes_byte_of_exec fun _ => rfl, pushes_byte_of_exec fun _ => rfl, pushes_word_of_exec fun _ => rfl,
    pullsAcc_of_exec fun _ => rfl, pullsAcc_of_exec fun _ => rfl, fun s => ⟨_, rfl, ?registers, pull16_readsOnly s⟩⟩
  case registers => simp [SameRegisters, pull16_value]

/-! ### Transfers (R161 to R167) -/

/-- The byte form of the flags as a number: bits 7 and 6 read as 1 (R26, R164). -/
theorem Ccr.toByte_eq_ofNat (f : Ccr) : f.toByte = BitVec.ofNat 8 (192 + 32 * f.h.toNat + 16 * f.i.toNat +
    8 * f.n.toNat + 4 * f.z.toNat + 2 * f.v.toNat + f.c.toNat) := by
  obtain ⟨h, i, n, z, v, c⟩ := f
  revert h i n z v c
  decide

/-- Settles O37: the flags of the moved value, the flags as a byte and the halves of X, in the statement's terms. -/
theorem transfersMoveRegisters : Obligations.TransfersMoveRegisters := by
  intro s
  refine ⟨?tab, ?tba, rfl, ?tpa, rfl, rfl, ?xgdx⟩
  case tab => rw [← move8_eq_moved8]; rfl
  case tba => rw [← move8_eq_moved8]; rfl
  case tpa => rw [← Ccr.toByte_eq_ofNat]; rfl
  case xgdx => rw [← hi_eq_shift, ← lo_eq_setWidth]; rfl

end Sys2Proof.Machine
end

section
/-! PROOF. The sums and differences of 42_arithmetic.md section 1 in integers: the model computes the flags from sign bits,
the statements from the true result. Every instruction that adds, subtracts or compares rests on the four flag lemmas
here. -/
namespace Sys2Proof.Machine

open Sys2Proof.Claims

/-! ### The signed number of a byte and of a word -/

/-- Two's complement on 8 bits (R8). -/
theorem toInt_byte_cases (v : Byte) :
    v.toNat < 128 ∧ v.toInt = v.toNat ∨ 128 ≤ v.toNat ∧ v.toNat < 256 ∧ v.toInt = v.toNat - 256 := by
  have hlt := v.isLt
  rw [BitVec.toInt_eq_toNat_cond]
  split <;> omega

/-- Two's complement on 16 bits (R8). -/
theorem toInt_word_cases (v : Word) :
    v.toNat < 32768 ∧ v.toInt = v.toNat ∨ 32768 ≤ v.toNat ∧ v.toNat < 65536 ∧ v.toInt = v.toNat - 65536 := by
  have hlt := v.isLt
  rw [BitVec.toInt_eq_toNat_cond]
  split <;> omega

theorem msb_byte_eq_toNat (v : Byte) : v[7] = decide (128 ≤ v.toNat) := by
  rw [msb_byte_eq, decide_eq_decide]
  have hv := toInt_byte_cases v
  omega

theorem msb_word_eq_toNat (v : Word) : v[15] = decide (32768 ≤ v.toNat) := by
  rw [msb_word_eq, decide_eq_decide]
  have hv := toInt_word_cases v
  omega

theorem msb_byte_of_value {v : Byte} {z : Int} (hv : (v.toNat : Int) = z) : v[7] = decide (128 ≤ z) := by
  rw [msb_byte_eq_toNat, decide_eq_decide]
  omega

theorem msb_word_of_value {v : Word} {z : Int} (hv : (v.toNat : Int) = z) : v[15] = decide (32768 ≤ z) := by
  rw [msb_word_eq_toNat, decide_eq_decide]
  omega

theorem decide_eq_zero_of_value {w : Nat} {v : BitVec w} {z : Int} (hv : (v.toNat : Int) = z) :
    decide (v = 0#w) = decide (z = 0) := by
  rw [decide_eq_zero_toNat, decide_eq_decide]
  omega

/-! ### Overflow by signs and overflow of the true result (R191 to R193)

`half` is 128 or 32768, `s` the true signed result, `r` the number of the result's bits: `s`, wrapped around once at
most. -/

/-- The sum of equal signs has another sign exactly when it does not fit. -/
theorem addOverflow_by_signs {half a m s r : Int} (ha : -half ≤ a ∧ a < half) (hm : -half ≤ m ∧ m < half)
    (hr : -half ≤ r ∧ r < half) (hs : s = a + m ∨ s = a + m + 1)
    (hwrap : r = s ∨ r = s - 2 * half ∨ r = s + 2 * half) :
    ((decide (a < 0) == decide (m < 0)) && (decide (r < 0) != decide (a < 0))) = decide (s < -half ∨ half ≤ s) := by
  rw [Bool.eq_iff_iff]
  simp only [Bool.and_eq_true, beq_iff_eq, bne_iff_ne, ne_eq, decide_eq_decide, decide_eq_true_iff]
  omega

/-- The difference of different signs has another sign than the minuend exactly when it does not fit. -/
theorem subOverflow_by_signs {half a m s r : Int} (ha : -half ≤ a ∧ a < half) (hm : -half ≤ m ∧ m < half)
    (hr : -half ≤ r ∧ r < half) (hs : s = a - m ∨ s = a - m - 1)
    (hwrap : r = s ∨ r = s - 2 * half ∨ r = s + 2 * half) :
    ((decide (a < 0) != decide (m < 0)) && (decide (r < 0) != decide (a < 0))) = decide (s < -half ∨ half ≤ s) := by
  rw [Bool.eq_iff_iff]
  simp only [Bool.and_eq_true, bne_iff_ne, ne_eq, decide_eq_decide, decide_eq_true_iff]
  omega

/-! ### Results and flags (R191 to R193) -/

/-- Flags that agree one by one are the same. -/
theorem Ccr.eq_of_flags {f g : Ccr} (hh : f.h = g.h) (hi : f.i = g.i) (hn : f.n = g.n) (hz : f.z = g.z)
    (hv : f.v = g.v) (hc : f.c = g.c) : f = g := by
  cases f
  cases g
  rw [Ccr.mk.injEq]
  exact ⟨hh, hi, hn, hz, hv, hc⟩

theorem add8_value (a m : Byte) (k : Bool) (f : Ccr) :
    (add8 a m k f).1.toNat = (a.toNat + m.toNat + k.toNat) % 256 := BitVec.toNat_ofNat ..

/-- `Add8` sets the flags of the true sum. -/
theorem add8_flags (a m : Byte) (k : Bool) (f : Ccr) : (add8 a m k f).2 = addFlags8 a m k.toNat f := by
  have hval := add8_value a m k f
  refine Ccr.eq_of_flags rfl rfl ?n ?z ?v rfl
  case n => rw [addFlags8, ← hval]; exact msb_byte_eq_toNat _
  case z => rw [addFlags8, ← hval]; exact decide_eq_zero_toNat _
  case v =>
    change (a[7] == m[7] && ((add8 a m k f).1[7] != a[7])) = _
    rw [msb_byte_eq, msb_byte_eq, msb_byte_eq]
    have hk := k.toNat_le
    have ha := toInt_byte_cases a
    have hm := toInt_byte_cases m
    have hr := toInt_byte_cases (add8 a m k f).1
    exact addOverflow_by_signs (half := 128) (by omega) (by omega) (by omega) (by omega) (by omega)

theorem sub8_value (a m : Byte) (k : Bool) (f : Ccr) :
    ((sub8 a m k f).1.toNat : Int) = ((a.toNat : Int) - m.toNat - k.toNat) % 256 := by
  change ((BitVec.ofInt 8 ((a.toNat : Int) - m.toNat - k.toNat)).toNat : Int) = _
  rw [BitVec.toNat_ofInt]
  omega

/-- `Sub8` sets the flags of the true difference. -/
theorem sub8_flags (a m : Byte) (k : Bool) (f : Ccr) : (sub8 a m k f).2 = subFlags8 a m k.toNat f := by
  have hval := sub8_value a m k f
  refine Ccr.eq_of_flags rfl rfl ?n ?z ?v ?c
  case n => exact msb_byte_of_value hval
  case z => exact decide_eq_zero_of_value hval
  case v =>
    change (a[7] != m[7] && ((sub8 a m k f).1[7] != a[7])) = _
    rw [msb_byte_eq, msb_byte_eq, msb_byte_eq]
    have hk := k.toNat_le
    have ha := toInt_byte_cases a
    have hm := toInt_byte_cases m
    have hr := toInt_byte_cases (sub8 a m k f).1
    exact subOverflow_by_signs (half := 128) (by omega) (by omega) (by omega) (by omega) (by omega)
  case c => exact decide_eq_decide.mpr (by omega)

theorem add16_value (a m : Word) (f : Ccr) : (add16 a m f).1.toNat = (a.toNat + m.toNat) % 65536 :=
  BitVec.toNat_ofNat ..

/-- `Add16` sets the flags of the true sum. -/
theorem add16_flags (a m : Word) (f : Ccr) : (add16 a m f).2 = addFlags16 a m f := by
  have hval := add16_value a m f
  refine Ccr.eq_of_flags rfl rfl ?n ?z ?v rfl
  case n => rw [addFlags16, ← hval]; exact msb_word_eq_toNat _
  case z => rw [addFlags16, ← hval]; exact decide_eq_zero_toNat _
  case v =>
    change (a[15] == m[15] && ((add16 a m f).1[15] != a[15])) = _
    rw [msb_word_eq, msb_word_eq, msb_word_eq]
    have ha := toInt_word_cases a
    have hm := toInt_word_cases m
    have hr := toInt_word_cases (add16 a m f).1
    exact addOverflow_by_signs (half := 32768) (by omega) (by omega) (by omega) (by omega) (by omega)

theorem sub16_value (a m : Word) (f : Ccr) :
    ((sub16 a m f).1.toNat : Int) = ((a.toNat : Int) - m.toNat) % 65536 := by
  change ((BitVec.ofInt 16 ((a.toNat : Int) - m.toNat)).toNat : Int) = _
  rw [BitVec.toNat_ofInt]
  omega

/-- `Sub16` sets the flags of the true difference. -/
theorem sub16_flags (a m : Word) (f : Ccr) : (sub16 a m f).2 = subFlags16 a m f := by
  have hval := sub16_value a m f
  have ha := toInt_word_cases a
  have hm := toInt_word_cases m
  refine Ccr.eq_of_flags rfl rfl ?n ?z ?v ?c
  case n => exact msb_word_of_value hval
  case z =>
    refine (decide_eq_zero_toNat _).trans (decide_eq_decide.mpr ?_)
    rw [← BitVec.toNat_inj]
    change (sub16 a m f).1.toNat = 0 ↔ _
    omega
  case v =>
    change (a[15] != m[15] && ((sub16 a m f).1[15] != a[15])) = _
    rw [msb_word_eq, msb_word_eq, msb_word_eq]
    have hr := toInt_word_cases (sub16 a m f).1
    exact subOverflow_by_signs (half := 32768) (by omega) (by omega) (by omega) (by omega) (by omega)
  case c => exact decide_eq_decide.mpr (by omega)

/-! ### With no carry in, result and flags as a pair (R194, R197 to R200, R203) -/

theorem add8_no_carry (a m : Byte) (f : Ccr) : add8 a m false f = (a + m, addFlags8 a m 0 f) := by
  refine Prod.ext (BitVec.eq_of_toNat_eq ?_) (add8_flags a m false f)
  rw [add8_value, BitVec.toNat_add]
  rfl

theorem sub8_no_borrow (a m : Byte) (f : Ccr) : sub8 a m false f = (a - m, subFlags8 a m 0 f) := by
  have hval := sub8_value a m false f
  have hm := m.isLt
  rw [Bool.toNat_false] at hval
  refine Prod.ext (BitVec.eq_of_toNat_eq ?_) (sub8_flags a m false f)
  rw [BitVec.toNat_sub]
  omega

theorem add16_eq (a m : Word) (f : Ccr) : add16 a m f = (a + m, addFlags16 a m f) := by
  refine Prod.ext (BitVec.eq_of_toNat_eq ?_) (add16_flags a m f)
  rw [add16_value, BitVec.toNat_add]

theorem sub16_eq (a m : Word) (f : Ccr) : sub16 a m f = (a - m, subFlags16 a m f) := by
  have hval := sub16_value a m f
  have hm := m.isLt
  refine Prod.ext (BitVec.eq_of_toNat_eq ?_) (sub16_flags a m f)
  rw [BitVec.toNat_sub]
  omega

end Sys2Proof.Machine
end

section
/-! PROOF. Arithmetic, compare and test instructions (42_arithmetic.md): the three shapes that an operand read or a byte
changed in place gives, each tied to its claim once, and the obligations as uses of them. -/
namespace Sys2Proof.Machine

open Sys2Proof.Claims

/-! ### An accumulator combined with a source -/

theorem accOp_eq (op : Byte → Byte → Ccr → Alu8) (r : Acc) (src : Src8) (s : State) : accOp op r src s =
    ({ afterSrc8 src s with ccr := (op (s.acc r) (srcValue8 src s) s.ccr).2 } : State).setAcc r
      (op (s.acc r) (srcValue8 src s) s.ccr).1 := by
  rw [accOp, opnd8_eq]
  cases r <;> rfl

theorem combines_of_exec {i : Src8 → Instr} {r : Acc} {op : Byte → Byte → Ccr → Alu8} {res : Byte → Byte → Nat → Int}
    {fl : Byte → Byte → Nat → Ccr → Ccr} {k : Ccr → Nat} (hexec : ∀ src s, exec (i src) s = .next (accOp op r src s))
    (hres : ∀ a m f, ((op a m f).1.toNat : Int) = res a m (k f) % 256)
    (hfl : ∀ a m f, (op a m f).2 = fl a m (k f) f) : Combines i r res fl k := by
  intro src s
  refine ⟨_, hexec src s, ?_⟩
  rw [accOp_eq, State.acc_setAcc, State.setAcc_ccr]
  exact ⟨hres _ _ _, hfl _ _ _, ((afterSrc8_frame src s).1.setCcr _).setAcc r _,
    readsOnly_then_registers (afterSrc8_readsOnly src s) (setAcc_readsOnly _ r _)⟩

/-- Settles O39: the accumulator takes the sum of R191, and its flags are those of the true sum. -/
theorem byteAdditions : Obligations.ByteAdditions := by
  have hsum : ∀ (a m : Byte) (c : Bool) (f : Ccr), ((add8 a m c f).1.toNat : Int) = sumOf a m c.toNat % 256 :=
    fun a m c f => by rw [add8_value]; rfl
  refine ⟨combines_of_exec (fun _ _ => rfl) (fun a m f => hsum a m false f) fun a m f => add8_flags a m false f,
    combines_of_exec (fun _ _ => rfl) (fun a m f => hsum a m false f) fun a m f => add8_flags a m false f,
    combines_of_exec (fun _ _ => rfl) (fun a m f => hsum a m f.c f) fun a m f => add8_flags a m f.c f,
    combines_of_exec (fun _ _ => rfl) (fun a m f => hsum a m f.c f) fun a m f => add8_flags a m f.c f, ?aba⟩
  case aba =>
    intro s
    change execAba s = _
    rw [execAba, add8_no_carry]

/-- Settles O40: the accumulator takes the difference of R192, and its flags are those of the true difference. -/
theorem byteSubtractions : Obligations.ByteSubtractions := by
  refine ⟨combines_of_exec (fun _ _ => rfl) (fun a m f => sub8_value a m false f) fun a m f => sub8_flags a m false f,
    combines_of_exec (fun _ _ => rfl) (fun a m f => sub8_value a m false f) fun a m f => sub8_flags a m false f,
    combines_of_exec (fun _ _ => rfl) (fun a m f => sub8_value a m f.c f) fun a m f => sub8_flags a m f.c f,
    combines_of_exec (fun _ _ => rfl) (fun a m f => sub8_value a m f.c f) fun a m f => sub8_flags a m f.c f, ?sba⟩
  case sba =>
    intro s
    change execSba s = _
    rw [execSba, sub8_no_borrow]

/-! ### Flags alone (R218 to R221, R253) -/

theorem accTest_eq (op : Byte → Byte → Ccr → Alu8) (r : Acc) (src : Src8) (s : State) : accTest op r src s =
    { afterSrc8 src s with ccr := (op (s.acc r) (srcValue8 src s) s.ccr).2 } := by
  rw [accTest, opnd8_eq]

/-- A new value of the flags after the operand reads. -/
theorem setCcr_readsOnly {s u : State} (hreads : ReadsOnly s u u) (f : Ccr) : ReadsOnly s u { u with ccr := f } :=
  readsOnly_then_registers hreads (readsOnly_refl u)

theorem compares_of_exec {i : Src8 → Instr} {r : Acc} {op : Byte → Byte → Ccr → Alu8} {fl : Byte → Byte → Ccr → Ccr}
    (hexec : ∀ src s, exec (i src) s = .next (accTest op r src s)) (hfl : ∀ a m f, (op a m f).2 = fl a m f) :
    Compares i r fl := by
  intro src s
  refine ⟨_, hexec src s, ?_⟩
  rw [accTest_eq, hfl]
  exact ⟨(afterSrc8_frame src s).1.setCcr _, setCcr_readsOnly (afterSrc8_readsOnly src s) _⟩

theorem touch_readsOnly (s : State) (p : Word) : ReadsOnly s (s.touch p) (s.touch p) :=
  afterSrc8_readsOnly (.mem (.ext p)) s

theorem tst8_eq (v : Byte) (f : Ccr) : tst8 v f = { moved8 f v with c := false } := by
  rw [← move8_eq_moved8]; rfl

/-- Settles O41: the compares set the flags of the subtraction, BIT and TST those of the value looked at. -/
theorem comparesWriteFlagsAlone : Obligations.ComparesWriteFlagsAlone := by
  refine ⟨compares_of_exec (fun _ _ => rfl) fun a m f => sub8_flags a m false f,
    compares_of_exec (fun _ _ => rfl) fun a m f => sub8_flags a m false f,
    compares_of_exec (fun _ _ => rfl) fun a m f => move8_eq_moved8 f (a &&& m),
    compares_of_exec (fun _ _ => rfl) fun a m f => move8_eq_moved8 f (a &&& m), ?cba, ?tsta, ?tstb, ?tst, ?cpx⟩
  case cba =>
    intro s
    change execCba s = _
    rw [execCba, sub8_no_borrow]
  case tsta =>
    intro s
    rw [← tst8_eq]
    rfl
  case tstb =>
    intro s
    rw [← tst8_eq]
    rfl
  case tst =>
    intro m s
    rw [← tst8_eq]
    exact ⟨_, rfl, (afterSrc8_frame (.mem (modeOfXE m)) s).1.setCcr _, setCcr_readsOnly (touch_readsOnly s _) _⟩
  case cpx =>
    intro src s
    refine ⟨{ afterSrc16 src s with ccr := (sub16 s.x (srcValue16 src s) s.ccr).2 }, ?_, ?_⟩
    · change execCpx src s = _
      rw [execCpx, opnd16_eq]
    · rw [sub16_eq]
      exact ⟨(afterSrc16_frame src s).1.setCcr _, setCcr_readsOnly (afterSrc16_readsOnly src s) _⟩

/-! ### Words (R199, R200, R207, R208) -/

theorem SameRegisters.setD {s t : State} (h : SameRegisters s t) (v : Word) : SameRegisters (s.setD v) (t.setD v) := by
  obtain ⟨-, -, hrest⟩ := h
  exact ⟨rfl, rfl, hrest⟩

/-- D and the flags written after a 16-bit operand read. -/
theorem setD_afterSrc16 (src : Src16) (s : State) (v : Word) (f : Ccr) :
    SameRegisters (({ s with ccr := f } : State).setD v) { (afterSrc16 src s).setD v with ccr := f } ∧
      ReadsOnly s (afterSrc16 src s) { (afterSrc16 src s).setD v with ccr := f } :=
  ⟨((afterSrc16_frame src s).1.setCcr f).setD v, readsOnly_then_registers (afterSrc16_readsOnly src s) (readsOnly_refl _)⟩

/-- The product of two bytes fits 16 bits (R207). -/
theorem mul8_value (a b : Byte) (f : Ccr) : (mul8 a b f).1.toNat = a.toNat * b.toNat := by
  have hfits : a.toNat * b.toNat < 256 * 256 := Nat.mul_lt_mul'' a.isLt b.isLt
  exact (BitVec.toNat_ofNat ..).trans (Nat.mod_eq_of_lt hfits)

theorem lo_getLsbD_seven (v : Word) : (lo v).getLsbD 7 = v[7] := by
  rw [lo, BitVec.getLsbD_extractLsb']; rfl

theorem add_zext16_eq (x : Word) (b : Byte) : x + zext16 b = BitVec.ofNat 16 (x.toNat + b.toNat) := by
  apply BitVec.eq_of_toNat_eq
  have hb := b.isLt
  rw [zext16, BitVec.toNat_add, BitVec.toNat_setWidth, BitVec.toNat_ofNat]
  omega

/-- Settles O42: D takes the 16-bit result with the flags of the true one; the product is exact; ABX adds a number below
256. -/
theorem wordArithmetic : Obligations.WordArithmetic := by
  refine ⟨?addd, ?subd, ?mul, ?abx⟩
  case addd =>
    intro src s
    refine ⟨_, ?_, setD_afterSrc16 src s _ _⟩
    change execAddd src s = _
    rw [execAddd, opnd16_eq, add16_eq]
  case subd =>
    intro src s
    refine ⟨_, ?_, setD_afterSrc16 src s _ _⟩
    change execSubd src s = _
    rw [execSubd, opnd16_eq, sub16_eq]
  case mul =>
    intro s
    refine ⟨_, rfl, ?product, ?rest⟩
    case product =>
      change 256 * (hi (mul8 s.a s.b s.ccr).1).toNat + (lo (mul8 s.a s.b s.ccr).1).toNat = _
      rw [← cat_toNat, cat_hi_lo, mul8_value]
    case rest =>
      change _ = ({ s with a := _, b := _, ccr := { s.ccr with c := (lo (mul8 s.a s.b s.ccr).1).getLsbD 7 } } : State)
      rw [lo_getLsbD_seven]
      rfl
  case abx =>
    intro s
    rw [← add_zext16_eq]
    rfl

/-! ### Decimal adjust (R209) -/

/-- Settles O43: without its 0x60 the correction is at most 6, so reaching 0x60 says that it was added. -/
theorem decimalAdjust : Obligations.DecimalAdjust := by
  intro s
  refine ⟨_, rfl, ⟨?result, ?carry⟩, rfl, decide_eq_true_iff, rfl⟩
  case result =>
    change (s.a.toNat + daaCorrection s.a s.ccr) % 2 ^ 8 = _
    rw [daaCorrection, ← Nat.add_assoc]
  case carry =>
    change (s.ccr.c || decide (daaCorrection s.a s.ccr ≥ 0x60)) = true ↔ _
    rw [Bool.or_eq_true, decide_eq_true_iff, daaCorrection]
    refine or_congr_right ?_
    split <;> split <;> simp [*]

/-! ### A byte changed in place (R210, R212, R213) -/

theorem unaryAcc_of_exec {i : Instr} {r : Acc} {op : Byte → Ccr → Alu8} {res : Byte → Ccr → Byte} {fl : Byte → Ccr → Ccr}
    (hexec : ∀ s, exec i s = .next (accUnary op r s)) (hop : ∀ v f, op v f = (res v f, fl v f)) :
    UnaryAcc i r res fl := by
  intro s
  rw [hexec, accUnary, hop]
  cases r <;> rfl

/-- The one read is that of the operand, the one write that of the result, both at the effective address (R73). -/
theorem unaryMem_of_exec {M : Type} {i : M → Instr} {mode : M → Mode} {op : M → Byte → Ccr → Alu8}
    {res : M → Byte → Ccr → Byte} {fl : M → Byte → Ccr → Ccr}
    (hexec : ∀ m s, exec (i m) s = .next (memUnary (op m) (mode m) s))
    (hop : ∀ m v f, op m v f = (res m v f, fl m v f)) : UnaryMem i mode res fl := by
  intro m s
  refine ⟨_, hexec m s, ?registers, by simp [SameEngine], ?stores⟩
  case registers => simp [SameRegisters, memUnary_ccr, hop]
  case stores =>
    have hmem : (memUnary (op m) (mode m) s).mem =
        (writeAll [(s.ea (mode m), res m (s.peek (s.ea (mode m))) s.ccr)] s).mem := by
      rw [memUnary_mem, hop]
      exact memWrite_mem_congr (State.touch_cfg ..) (State.touch_mem ..) _ _
    refine storesBytes_of_writeAll (addresses_nodup_single _ _) hmem ?_
    rw [memUnary, memRead, hop]
    exact SamePeripherals.refl _

theorem unaryAll_of_exec {ia ib : Instr} {im : ModeXE → Instr} {op : Byte → Ccr → Alu8} {res : Byte → Ccr → Byte}
    {fl : Byte → Ccr → Ccr} (ha : ∀ s, exec ia s = .next (accUnary op .A s))
    (hb : ∀ s, exec ib s = .next (accUnary op .B s))
    (hm : ∀ m s, exec (im m) s = .next (memUnary op (modeOfXE m) s)) (hop : ∀ v f, op v f = (res v f, fl v f)) :
    UnaryAll ia ib im res fl :=
  ⟨unaryAcc_of_exec ha hop, unaryAcc_of_exec hb hop, unaryMem_of_exec hm fun _ => hop⟩

/-- The negation is 0x80 for 0x80 alone, and 0 for 0 alone. -/
theorem neg8_eq (v : Byte) (f : Ccr) : neg8 v f =
    (BitVec.ofInt 8 (-v.toInt), { moved8 f (-v) with v := decide (v = 0x80), c := decide (v ≠ 0) }) := by
  have hv : decide (0#8 - v = 0x80#8) = decide (v = 0x80) := decide_eq_decide.mpr (by bv_omega)
  have hc : decide (0#8 - v ≠ 0#8) = decide (v ≠ 0) := decide_eq_decide.mpr (by bv_omega)
  rw [neg8, hv, hc, BitVec.zero_sub, BitVec.ofInt_neg, BitVec.ofInt_toInt, ← move8_eq_moved8]
  rfl

theorem inc8_eq (v : Byte) (f : Ccr) : inc8 v f =
    (BitVec.ofNat 8 (v.toNat + 1), { moved8 f (v + 1) with v := decide (127 < v.toInt + 1) }) := by
  have hv : decide (v = 0x7F#8) = decide (127 < v.toInt + 1) := by
    have := toInt_byte_cases v
    exact decide_eq_decide.mpr (by bv_omega)
  have hr : BitVec.ofNat 8 (v.toNat + 1) = v + 1#8 := by bv_omega
  rw [inc8, hv, hr, ← move8_eq_moved8]
  rfl

theorem dec8_eq (v : Byte) (f : Ccr) : dec8 v f =
    (BitVec.ofInt 8 (v.toInt - 1), { moved8 f (v - 1) with v := decide (v.toInt - 1 < -128) }) := by
  have hv : decide (v = 0x80#8) = decide (v.toInt - 1 < -128) := by
    have := toInt_byte_cases v
    exact decide_eq_decide.mpr (by bv_omega)
  have hr : BitVec.ofInt 8 (v.toInt - 1) = v - 1#8 := by
    rw [Int.sub_eq_add_neg, BitVec.ofInt_add, BitVec.ofInt_toInt, BitVec.sub_eq_add_neg]
    rfl
  rw [dec8, hv, hr, ← move8_eq_moved8]
  rfl

/-- Settles O45: the signed result and its overflow, read and written in place. -/
theorem negateIncrementDecrement : Obligations.NegateIncrementDecrement :=
  ⟨unaryAll_of_exec (fun _ => rfl) (fun _ => rfl) (fun _ _ => rfl) neg8_eq,
    unaryAll_of_exec (fun _ => rfl) (fun _ => rfl) (fun _ _ => rfl) inc8_eq,
    unaryAll_of_exec (fun _ => rfl) (fun _ => rfl) (fun _ _ => rfl) dec8_eq⟩

/-! ### X and SP by one (R214 to R217) -/

/-- Settles O46: X becomes 0 from 0xFFFF by INX and from 1 by DEX. -/
theorem indexAndStackPointerSteps : Obligations.IndexAndStackPointerSteps := by
  intro s
  have hinx : decide (s.x + 1 = 0) = decide (s.x.toNat = 65535) := decide_eq_decide.mpr (by bv_omega)
  have hdex : decide (s.x - 1 = 0) = decide (s.x.toNat = 1) := decide_eq_decide.mpr (by bv_omega)
  rw [← hinx, ← hdex]
  exact ⟨rfl, rfl, rfl, rfl⟩

/-! ### Branches after a compare (R300, R218) -/

/-- The target is the signed offset from the following instruction (R10, R300). -/
theorem relTarget_eq (s : State) (rel : Byte) : s.relTarget rel = BitVec.ofInt 16 (s.pc.toNat + rel.toInt) := by
  have hrel := toInt_byte_cases rel
  have hzext : (zext16 rel).toNat = rel.toNat := BitVec.toNat_setWidth_of_le (by decide)
  apply BitVec.eq_of_toNat_eq
  rw [State.relTarget, sext16, BitVec.toNat_ofInt]
  split
  · rw [BitVec.toNat_add, hzext]
    omega
  · rw [BitVec.toNat_add, BitVec.toNat_add, hzext, BitVec.toNat_ofNat]
    omega

theorem branchIf_eq {taken : Bool} {P : Prop} [Decidable P] (h : taken = true ↔ P) (rel : Byte) (s : State) :
    branchIf taken rel s = if P then jumped s rel else s := by
  rw [branchIf, relTarget_eq, jumped]
  exact if_congr h rfl rfl

theorem not_eq_true_iff {b : Bool} {P : Prop} (h : b = true ↔ P) : (!b) = true ↔ ¬P := by
  rw [← h, Bool.not_eq_true', Bool.not_eq_true]

/-- After a subtraction with no borrow in, C is the unsigned order of its operands, Z their equality and N xor V their
signed order (R218). -/
theorem subFlags8_order (a m : Byte) (f : Ccr) :
    ((subFlags8 a m 0 f).c = true ↔ a.toNat < m.toNat) ∧ ((subFlags8 a m 0 f).z = true ↔ a = m) ∧
      (((subFlags8 a m 0 f).n ^^ (subFlags8 a m 0 f).v) = true ↔ a.toInt < m.toInt) := by
  have ha := toInt_byte_cases a
  have hm := toInt_byte_cases m
  simp only [subFlags8, decide_eq_true_iff, Bool.xor_iff_ne, ne_eq, decide_eq_decide, ← BitVec.toNat_inj]
  omega

/-- Settles O54: the conditions of R300 on those flags are the unsigned and the signed order. -/
theorem branchesAfterCompare : Obligations.BranchesAfterCompare := by
  intro src rel s t h
  obtain ⟨m, hm⟩ : ∃ m, srcValue8 src s = m := ⟨_, rfl⟩
  obtain ⟨hc, hz, hlt⟩ := subFlags8_order s.a m s.ccr
  have hccr : t.ccr = subFlags8 s.a m 0 s.ccr := by
    cases h
    rw [accTest_ccr, sub8_no_borrow, hm]
    rfl
  rw [← hccr] at hc hz hlt
  have hls : (t.ccr.c || t.ccr.z) = true ↔ s.a.toNat ≤ m.toNat := by
    rw [Bool.or_eq_true, hc, hz, ← BitVec.toNat_inj, Nat.le_iff_lt_or_eq]
  have hle : (t.ccr.z || (t.ccr.n ^^ t.ccr.v)) = true ↔ s.a.toInt ≤ m.toInt := by
    rw [Bool.or_eq_true, hz, hlt, ← BitVec.toInt_inj, or_comm, Int.le_iff_lt_or_eq]
  rw [hm]
  refine ⟨congrArg _ (branchIf_eq ?bhi rel t), congrArg _ (branchIf_eq hls rel t), congrArg _ (branchIf_eq ?bcc rel t),
    congrArg _ (branchIf_eq hc rel t), congrArg _ (branchIf_eq ?bne rel t), congrArg _ (branchIf_eq hz rel t),
    congrArg _ (branchIf_eq ?bge rel t), congrArg _ (branchIf_eq hlt rel t), congrArg _ (branchIf_eq ?bgt rel t),
    congrArg _ (branchIf_eq hle rel t)⟩
  case bhi => exact (not_eq_true_iff hls).trans Nat.not_le
  case bcc => exact (not_eq_true_iff hc).trans Nat.not_lt
  case bne => exact not_eq_true_iff hz
  case bge => exact (not_eq_true_iff hlt).trans Int.not_lt
  case bgt => exact (not_eq_true_iff hle).trans Int.not_le

end Sys2Proof.Machine
end

section
/-! PROOF. Logic, shift, rotate and bit-manipulation instructions (43_logic_shift_bit.md): what each byte operation
gives in the statements' terms, and the obligations from the shapes of the arithmetic part. -/
namespace Sys2Proof.Machine

open Sys2Proof.Claims

/-! ### Bitwise operations (R250 to R252) -/

theorem logic8_eq (op : Byte → Byte → Byte) (a m : Byte) (f : Ccr) : logic8 op a m f = (op a m, moved8 f (op a m)) := by
  rw [logic8, move8_eq_moved8]

theorem bitwise_of_exec {i : Src8 → Instr} {r : Acc} {op : Byte → Byte → Byte}
    (hexec : ∀ src s, exec (i src) s = .next (accOp (logic8 op) r src s)) : Bitwise i r op := by
  intro src s
  refine ⟨_, hexec src s, ?_⟩
  rw [accOp_eq, logic8_eq]
  exact ⟨((afterSrc8_frame src s).1.setCcr _).setAcc r _,
    readsOnly_then_registers (afterSrc8_readsOnly src s) (setAcc_readsOnly _ r _)⟩

/-- Settles O47: each is the one shape of an accumulator combined with a source, with its own bitwise operation. -/
theorem bitwiseOnAccumulators : Obligations.BitwiseOnAccumulators :=
  ⟨bitwise_of_exec fun _ _ => rfl, bitwise_of_exec fun _ _ => rfl, bitwise_of_exec fun _ _ => rfl,
    bitwise_of_exec fun _ _ => rfl, bitwise_of_exec fun _ _ => rfl, bitwise_of_exec fun _ _ => rfl⟩

/-! ### Masks on memory (R280 to R283) -/

/-- Settles O52: AIM, OIM and EIM are one read and one write of the masked byte; TIM stops after the read. -/
theorem masksOnMemory : Obligations.MasksOnMemory := by
  refine ⟨fun mask => unaryMem_of_exec (fun _ _ => rfl) fun _ v => logic8_eq and8 v mask,
    fun mask => unaryMem_of_exec (fun _ _ => rfl) fun _ v => logic8_eq or8 v mask,
    fun mask => unaryMem_of_exec (fun _ _ => rfl) fun _ v => logic8_eq xor8 v mask, ?tim⟩
  case tim =>
    intro mask m s
    rw [← move8_eq_moved8]
    exact ⟨_, rfl, (afterSrc8_frame (.mem (modeOfDX m)) s).1.setCcr _, setCcr_readsOnly (touch_readsOnly s _) _⟩

/-! ### Complement and clear (R258, R259) -/

theorem com8_eq (v : Byte) (f : Ccr) : com8 v f = (~~~v, { moved8 f (~~~v) with c := true }) := by
  have hr : 0xFF#8 - v = ~~~v := BitVec.allOnes_sub_eq_not v
  rw [com8, hr, ← move8_eq_moved8]
  rfl

theorem execClr_eq (m : ModeXE) (s : State) :
    exec (.clr m) s = .next (writeAll [(s.ea (modeOfXE m), 0)] { s with ccr := clrFlags s.ccr }) := by
  change execClr m s = .next (memWrite (s.ea (modeOfXE m)) 0 { s with ccr := clrFlags s.ccr })
  rw [memWrite_setCcr, execClr]

/-- Settles O48: 0xFF less a byte is its complement; CLR on memory is one write with no read before it. -/
theorem complementAndClear : Obligations.ComplementAndClear :=
  ⟨unaryAll_of_exec (fun _ => rfl) (fun _ => rfl) (fun _ _ => rfl) com8_eq, fun _ => rfl, fun _ => rfl,
    fun m s => ⟨_, execClr_eq m s, writeAll_setCcr_stores (addresses_nodup_single _ _) s _⟩⟩

/-! ### Shifts by one bit (R270 to R272, R275, R276) -/

theorem shiftFlags8_eq (r : Byte) (c : Bool) (f : Ccr) : shiftFlags8 r c f = shifted8 r c f := by
  rw [shiftFlags8, Ccr.setNZ8, msb_byte_eq, decide_eq_zero_toNat, shifted8]

theorem shiftFlags16_eq (r : Word) (c : Bool) (f : Ccr) : shiftFlags16 r c f = shifted16 r c f := by
  rw [shiftFlags16, Ccr.setNZ16, msb_word_eq, decide_eq_zero_toNat, shifted16]

theorem ofNat_double_eq_shiftLeft {w : Nat} (v : BitVec w) : BitVec.ofNat w (v.toNat * 2) = v <<< 1 := by
  apply BitVec.eq_of_toNat_eq
  rw [BitVec.toNat_ofNat, BitVec.toNat_shiftLeft, Nat.shiftLeft_eq]

/-- A bit put in at the top of a value shifted right: that bit's weight and the half, rounded down. -/
theorem append_upperBits_toNat {w : Nat} (b : Bool) (v : BitVec (w + 1)) :
    (BitVec.ofBool b ++ v.extractLsb' 1 w).toNat = 2 ^ w * b.toNat + v.toNat / 2 := by
  have hhalf : v.toNat / 2 < 2 ^ w := by have := v.isLt; omega
  rw [BitVec.toNat_append, ← Nat.shiftLeft_add_eq_or_of_lt (BitVec.isLt _), BitVec.toNat_ofBool, Nat.shiftLeft_eq,
    Nat.mul_comm, BitVec.extractLsb'_toNat, Nat.shiftRight_eq_div_pow, Nat.pow_one, Nat.mod_eq_of_lt hhalf]

theorem asl8_eq (v : Byte) (f : Ccr) : asl8 v f = (v <<< 1, shifted8 (v <<< 1) (v.getLsbD 7) f) := by
  rw [asl8, ofNat_double_eq_shiftLeft, shiftFlags8_eq]
  rfl

/-- Copying the sign bit halves the signed number, rounded down. -/
theorem asr8_eq (v : Byte) (f : Ccr) :
    asr8 v f = (BitVec.ofInt 8 (v.toInt / 2), shifted8 (BitVec.ofInt 8 (v.toInt / 2)) (v.getLsbD 0) f) := by
  have hr : (BitVec.ofBool v[7] ++ v.extractLsb' 1 7 : Byte) = BitVec.ofInt 8 (v.toInt / 2) := by
    apply BitVec.eq_of_toNat_eq
    have hv := toInt_byte_cases v
    rw [append_upperBits_toNat, msb_byte_eq, BitVec.toNat_ofInt]
    by_cases hneg : v.toInt < 0
    · rw [decide_eq_true hneg, Bool.toNat_true]
      omega
    · rw [decide_eq_false hneg, Bool.toNat_false]
      omega
  rw [asr8, hr, shiftFlags8_eq]
  rfl

theorem lsr8_eq (v : Byte) (f : Ccr) :
    lsr8 v f = (BitVec.ofNat 8 (v.toNat / 2), shifted8 (BitVec.ofNat 8 (v.toNat / 2)) (v.getLsbD 0) f) := by
  have hr : (0#1 ++ v.extractLsb' 1 7 : Byte) = BitVec.ofNat 8 (v.toNat / 2) := by
    apply BitVec.eq_of_toNat_eq
    have hv := v.isLt
    refine (append_upperBits_toNat false v).trans ?_
    rw [BitVec.toNat_ofNat, Bool.toNat_false]
    omega
  rw [lsr8, hr, shiftFlags8_eq]
  rfl

theorem asl16_eq (v : Word) (f : Ccr) : asl16 v f = (v <<< 1, shifted16 (v <<< 1) v[15] f) := by
  rw [asl16, ofNat_double_eq_shiftLeft, shiftFlags16_eq]

theorem lsr16_eq (v : Word) (f : Ccr) : lsr16 v f = (v >>> 1, shifted16 (v >>> 1) v[0] f) := by
  have hr : (0#1 ++ v.extractLsb' 1 15 : Word) = v >>> 1 := by
    apply BitVec.eq_of_toNat_eq
    refine (append_upperBits_toNat false v).trans ?_
    rw [BitVec.toNat_ushiftRight, Nat.shiftRight_eq_div_pow, Bool.toNat_false, Nat.mul_zero, Nat.zero_add, Nat.pow_one]
  rw [lsr16, hr, shiftFlags16_eq]

/-- The top bit of D is that of A, the bottom bit that of B (R9). -/
theorem cat_top (h l : Byte) : (cat h l)[15] = h.getLsbD 7 := by
  change (h ++ l).getLsbD 15 = _
  rw [BitVec.getLsbD_append]
  rfl

theorem cat_bottom (h l : Byte) : (cat h l)[0] = l.getLsbD 0 := by
  change (h ++ l).getLsbD 0 = _
  rw [BitVec.getLsbD_append]
  rfl

/-- Settles O49: the bits moved are a multiplication or a division by two, and the bit shifted out is the operand's. -/
theorem shiftsByOneBit : Obligations.ShiftsByOneBit := by
  refine ⟨unaryAll_of_exec (fun _ => rfl) (fun _ => rfl) (fun _ _ => rfl) asl8_eq,
    unaryAll_of_exec (fun _ => rfl) (fun _ => rfl) (fun _ _ => rfl) asr8_eq,
    unaryAll_of_exec (fun _ => rfl) (fun _ => rfl) (fun _ _ => rfl) lsr8_eq, fun s => ⟨?asld, ?lsrd⟩⟩
  case asld =>
    change execAsld s = _
    rw [execAsld, asl16_eq, ← cat_top s.a s.b]
    rfl
  case lsrd =>
    change execLsrd s = _
    rw [execLsrd, lsr16_eq, ← cat_bottom s.a s.b]
    rfl

/-! ### Rotates of the nine bits `C:v` (R273, R274) -/

theorem withCarry_low {k : Nat} (hk : k < 8) (c : Bool) (v : Byte) : (withCarry c v).getLsbD k = v.getLsbD k := by
  rw [withCarry, BitVec.getLsbD_append, if_pos hk]

theorem withCarry_top (c : Bool) (v : Byte) : (withCarry c v).getLsbD 8 = c := by
  rw [withCarry, BitVec.getLsbD_append, BitVec.getLsbD_ofBool]
  rfl

theorem withCarry_injective {c d : Bool} {v w : Byte} (h : withCarry c v = withCarry d w) : c = d ∧ v = w := by
  refine ⟨?carry, ?byte⟩
  case carry => rw [← withCarry_top c v, h, withCarry_top]
  case byte => exact BitVec.eq_of_getLsbD_eq fun k hk => by rw [← withCarry_low hk c v, h, withCarry_low hk]

/-- One place to the left is eight places on around the nine. -/
theorem rotateLeft_one_getLsbD (x : BitVec 9) {k : Nat} (hk : k < 9) :
    (x.rotateLeft 1).getLsbD k = x.getLsbD ((k + 8) % 9) := by
  rw [BitVec.getLsbD_rotateLeft_of_le (by decide)]
  cases k with
  | zero => rfl
  | succ j => simp [hk, show (j + 1 + 8) % 9 = j by omega]

theorem rotateRight_one_getLsbD (x : BitVec 9) {k : Nat} (hk : k < 9) :
    (x.rotateRight 1).getLsbD k = x.getLsbD ((k + 1) % 9) := by
  rw [BitVec.getLsbD_rotateRight_of_lt (by decide)]
  obtain hlow | rfl : k < 8 ∨ k = 8 := by omega
  · simp [hlow, Nat.add_comm, show (k + 1) % 9 = k + 1 by omega]
  · rfl

/-- After ROL the nine bits are those before, rotated left: C comes in at the bottom and bit 7 becomes C. -/
theorem withCarry_rol8 (v : Byte) (f : Ccr) :
    withCarry (rol8 v f).2.c (rol8 v f).1 = (withCarry f.c v).rotateLeft 1 := by
  change withCarry (v.getLsbD 7) (v.extractLsb' 0 7 ++ BitVec.ofBool f.c) = _
  refine BitVec.eq_of_getLsbD_eq fun k hk => ?_
  rw [rotateLeft_one_getLsbD _ hk]
  obtain rfl | rfl | ⟨hpos, hlow⟩ : k = 0 ∨ k = 8 ∨ 0 < k ∧ k < 8 := by omega
  · rw [withCarry_low (by decide), BitVec.getLsbD_append, withCarry_top]
    simp
  · rw [withCarry_top, withCarry_low (by decide)]
  · rw [withCarry_low hlow, show (k + 8) % 9 = k - 1 by omega, withCarry_low (by omega), BitVec.getLsbD_append,
      if_neg (by omega), BitVec.getLsbD_extractLsb', decide_eq_true (by omega), Bool.true_and, Nat.zero_add]

/-- After ROR they are rotated right: C comes in at the top and bit 0 becomes C. -/
theorem withCarry_ror8 (v : Byte) (f : Ccr) :
    withCarry (ror8 v f).2.c (ror8 v f).1 = (withCarry f.c v).rotateRight 1 := by
  change withCarry (v.getLsbD 0) (BitVec.ofBool f.c ++ v.extractLsb' 1 7) = _
  refine BitVec.eq_of_getLsbD_eq fun k hk => ?_
  rw [rotateRight_one_getLsbD _ hk]
  obtain rfl | rfl | hlow : k = 8 ∨ k = 7 ∨ k < 7 := by omega
  · rw [withCarry_top, withCarry_low (by decide)]
  · rw [withCarry_low (by decide), BitVec.getLsbD_append, withCarry_top]
    simp
  · rw [withCarry_low (by omega), show (k + 1) % 9 = k + 1 by omega, withCarry_low (by omega), BitVec.getLsbD_append,
      if_pos hlow, BitVec.getLsbD_extractLsb', decide_eq_true hlow, Bool.true_and, Nat.add_comm]

theorem rol8_eq (v : Byte) (f : Ccr) : rol8 v f = (((withCarry f.c v).rotateLeft 1).setWidth 8,
    shifted8 (((withCarry f.c v).rotateLeft 1).setWidth 8) (v.getLsbD 7) f) := by
  rw [← withCarry_rol8, withCarry, BitVec.setWidth_append_eq_right, ← shiftFlags8_eq]
  rfl

theorem ror8_eq (v : Byte) (f : Ccr) : ror8 v f = (((withCarry f.c v).rotateRight 1).setWidth 8,
    shifted8 (((withCarry f.c v).rotateRight 1).setWidth 8) (v.getLsbD 0) f) := by
  rw [← withCarry_ror8, withCarry, BitVec.setWidth_append_eq_right, ← shiftFlags8_eq]
  rfl

/-- Settles O50: the byte is the low eight of the nine bits rotated, and C the bit that left it. -/
theorem rotatesThroughCarry : Obligations.RotatesThroughCarry :=
  ⟨unaryAll_of_exec (fun _ => rfl) (fun _ => rfl) (fun _ _ => rfl) rol8_eq,
    unaryAll_of_exec (fun _ => rfl) (fun _ => rfl) (fun _ _ => rfl) ror8_eq⟩

/-! ### Nine rotates (R273) -/

section
variable {w d : Nat} {rot : BitVec w → BitVec w}

/-- A map that takes each bit from `d` places on, around the width, takes it from `d * n` places on in `n` turns. -/
theorem iterate_rotates_getLsbD (hrot : ∀ x, ∀ k < w, (rot x).getLsbD k = x.getLsbD ((k + d) % w)) (n : Nat)
    (x : BitVec w) {k : Nat} (hk : k < w) : (rot^[n] x).getLsbD k = x.getLsbD ((k + d * n) % w) := by
  induction n generalizing x with
  | zero => rw [Nat.mul_zero, Nat.add_zero, Nat.mod_eq_of_lt hk, Function.iterate_zero_apply]
  | succ n ih =>
    rw [Function.iterate_succ_apply, ih, hrot x _ (Nat.mod_lt _ (Nat.zero_lt_of_lt hk)), Nat.mod_add_mod, Nat.add_assoc,
      Nat.mul_succ]

/-- As many turns as there are bits bring each bit back to its place. -/
theorem iterate_width_of_rotates (hrot : ∀ x, ∀ k < w, (rot x).getLsbD k = x.getLsbD ((k + d) % w)) (x : BitVec w) :
    rot^[w] x = x := by
  refine BitVec.eq_of_getLsbD_eq fun k hk => ?_
  rw [iterate_rotates_getLsbD hrot w x hk, Nat.add_mul_mod_self_right, Nat.mod_eq_of_lt hk]

end

theorem rotateLeft_nine (x : BitVec 9) : (BitVec.rotateLeft · 1)^[9] x = x :=
  iterate_width_of_rotates (fun y _ => rotateLeft_one_getLsbD y) x

theorem rotateRight_nine (x : BitVec 9) : (BitVec.rotateRight · 1)^[9] x = x :=
  iterate_width_of_rotates (fun y _ => rotateRight_one_getLsbD y) x

theorem execAll_replicate {i : Instr} {g : State → State} (hexec : ∀ s, exec i s = .next (g s)) (n : Nat) (s : State) :
    execAll (List.replicate n i) s = .next (g^[n] s) := by
  induction n generalizing s with
  | zero => rfl
  | succ n ih => rw [List.replicate_succ, execAll_cons (hexec s), ih, Function.iterate_succ_apply]

/-- C and an accumulator, as the nine bits a rotate of it turns. -/
def nineBits (r : Acc) (s : State) : BitVec 9 := withCarry s.ccr.c (s.acc r)

theorem nineBits_accUnary {op : Byte → Ccr → Alu8} {rot : BitVec 9 → BitVec 9}
    (hop : ∀ v f, withCarry (op v f).2.c (op v f).1 = rot (withCarry f.c v)) (r : Acc) (s : State) :
    nineBits r (accUnary op r s) = rot (nineBits r s) := by
  rw [nineBits, nineBits, ← hop]
  cases r <;> rfl

theorem nine_accUnary_restore {i : Instr} {op : Byte → Ccr → Alu8} {r : Acc} {rot : BitVec 9 → BitVec 9}
    (hexec : ∀ s, exec i s = .next (accUnary op r s))
    (hop : ∀ v f, withCarry (op v f).2.c (op v f).1 = rot (withCarry f.c v)) (hrot : ∀ x, rot^[9] x = x) (s : State) :
    ∃ t, execAll (List.replicate 9 i) s = .next t ∧ t.acc r = s.acc r ∧ t.ccr.c = s.ccr.c := by
  have hturns : nineBits r ((accUnary op r)^[9] s) = nineBits r s :=
    ((Function.Semiconj.iterate_right (nineBits_accUnary hop r) 9).eq s).trans (hrot _)
  obtain ⟨hc, hacc⟩ := withCarry_injective hturns
  exact ⟨_, execAll_replicate hexec 9 s, hacc, hc⟩

/-- Settles O51: each rotate turns the nine bits by one place, and nine turns of nine bits are none. -/
theorem nineRotatesRestore : Obligations.NineRotatesRestore := fun s =>
  ⟨nine_accUnary_restore (r := .A) (fun _ => rfl) withCarry_rol8 rotateLeft_nine s,
    nine_accUnary_restore (r := .B) (fun _ => rfl) withCarry_rol8 rotateLeft_nine s,
    nine_accUnary_restore (r := .A) (fun _ => rfl) withCarry_ror8 rotateRight_nine s,
    nine_accUnary_restore (r := .B) (fun _ => rfl) withCarry_ror8 rotateRight_nine s⟩

end Sys2Proof.Machine
end

section
/-! PROOF. Control transfer (44_control_transfer.md): the branches as one conditional jump over sixteen conditions, the
calls as two pushes, and the return that pulls what a call has pushed. -/
namespace Sys2Proof.Machine

open Sys2Proof.Claims

/-! ### Jumps, calls and RTS (R320, R322 to R324) -/

theorem calls_of_exec {i : Instr} {target : State → Word} (hexec : ∀ s, exec i s = .next (callTo (target s) s)) :
    Calls i target := by
  intro s
  refine ⟨_, hexec s, by simp [SameRegisters], by simp [SameEngine], ?stores⟩
  case stores =>
    rw [callTo_eq]
    exact storesBytes_of_writeAll (addresses_nodup_pair (sub_one_ne _) _ _) rfl (SamePeripherals.refl _)

theorem jsr_calls (m : Mode) : Calls (.jsr m) fun s => s.ea m := calls_of_exec fun _ => rfl

theorem bsr_calls (rel : Byte) : Calls (.bsr rel) fun s => BitVec.ofInt 16 (s.pc.toNat + rel.toInt) :=
  calls_of_exec fun s => by rw [← relTarget_eq]; rfl

theorem rts_pulls_pc (s : State) : ∃ t, exec .rts s = .next t ∧
    SameRegisters { s with sp := s.sp + 2, pc := vectorValue (s.sp + 1) s } t ∧
    ReadsOnly s ((s.touch (s.sp + 1)).touch (s.sp + 2)) t :=
  ⟨_, rfl, by simp [SameRegisters, pull16_value], pull16_readsOnly s⟩

/-- Settles O55: JMP is its effective address, a call two pushes and its target, RTS one word pulled. -/
theorem jumpsCallsAndReturns : Obligations.JumpsCallsAndReturns :=
  ⟨fun _ _ => rfl, jsr_calls, bsr_calls, rts_pulls_pc⟩

/-! ### A call followed by RTS (R324) -/

/-- Plain bytes stay plain under whatever keeps the parameters (R6, R61). -/
theorem Plain.of_sameEngine {s t : State} {p : Word} (h : Plain s p) (hengine : SameEngine s t) : Plain t p := by
  obtain ⟨-, -, -, hcfg, -⟩ := hengine
  rwa [Plain, hcfg]

theorem vectorValue_plain {s : State} {p : Word} (hhi : Plain s p) (hlo : Plain s (p + 1)) :
    vectorValue p s = cat (s.mem.read p.toNat) (s.mem.read (p + 1).toNat) := by
  rw [vectorValue, State.touch_plain hhi, State.peek_plain hhi, State.peek_plain hlo]

/-- RTS with plain bytes on the stack: the word stored at `q + 1` and `q + 2` goes to PC, and the peripherals stay. -/
theorem rts_of_plain {s : State} {q : Word} (hsp : s.sp = q - 2) (hhi : Plain s (q - 1)) (hlo : Plain s q) :
    ∃ t, exec .rts s = .next t ∧
      SameRegisters { s with sp := q, pc := cat (s.mem.read (q - 1).toNat) (s.mem.read q.toNat) } t ∧
      SamePeripherals s t := by
  obtain ⟨t, hexec, hregs, -, -, hper⟩ := rts_pulls_pc s
  have hfirst : s.sp + 1 = q - 1 := by rw [hsp]; bv_omega
  have hsecond : s.sp + 2 = q := by rw [hsp, BitVec.sub_add_cancel]
  have hnext : q - 1 + 1 = q := BitVec.sub_add_cancel q 1
  rw [hfirst, hsecond, vectorValue_plain hhi (by rwa [hnext]), hnext] at hregs
  rw [hfirst, hsecond, State.touch_plain hhi, State.touch_plain hlo] at hper
  exact ⟨t, hexec, hregs, hper⟩

/-- What RTS pulls is what the call has pushed, from the same two bytes. -/
theorem rts_after_call {i : Instr} {target : State → Word} (hcalls : Calls i target) {s : State}
    (hwf : s.mem.wf = true) (hlo : Plain s s.sp) (hhi : Plain s (s.sp - 1)) :
    ∃ t, execAll [i, .rts] s = .next t ∧ SameRegisters s t ∧ SamePeripherals s t := by
  obtain ⟨u, hcall, ⟨ha, hb, hx, hsp, -, hccr⟩, hengine, hstored, -, hpushed⟩ := hcalls s
  obtain ⟨t, hrts, ⟨ha', hb', hx', hsp', hpc', hccr'⟩, hpulled⟩ :=
    rts_of_plain hsp (hhi.of_sameEngine hengine) (hlo.of_sameEngine hengine)
  have hreadLo : u.mem.read s.sp.toNat = lo s.pc := hstored hwf (s.sp, lo s.pc) (by simp) hlo
  have hreadHi : u.mem.read (s.sp - 1).toNat = hi s.pc := hstored hwf (s.sp - 1, hi s.pc) (by simp) hhi
  have hpc : t.pc = s.pc := by rw [hpc', hreadHi, hreadLo, cat_hi_lo]
  have hplain : ∀ p ∈ [(s.sp, lo s.pc), (s.sp - 1, hi s.pc)], Plain s p.1 :=
    List.forall_mem_cons.mpr ⟨hlo, List.forall_mem_singleton.mpr hhi⟩
  refine ⟨t, ?_, ⟨ha'.trans ha, hb'.trans hb, hx'.trans hx, hsp', hpc, hccr'.trans hccr⟩, ?_⟩
  · rw [execAll_cons hcall, execAll_cons hrts, execAll_nil]
  · exact ((writeAll_samePeripherals _ s hplain).trans hpushed).trans hpulled

/-- Settles O56: JSR and BSR are calls, and RTS undoes a call. -/
theorem returnAfterCall : Obligations.ReturnAfterCall := fun m rel _ hwf hlo hhi =>
  ⟨rts_after_call (jsr_calls m) hwf hlo hhi, rts_after_call (bsr_calls rel) hwf hlo hhi⟩

/-! ### Branches (R300 to R316) -/

theorem branchesOn_of_exec {i : Byte → Instr} (taken : Ccr → Bool) {cond : Ccr → Bool}
    (hexec : ∀ rel s, exec (i rel) s = .next (branchIf (taken s.ccr) rel s))
    (htaken : ∀ f, taken f = true ↔ cond f = true) : BranchesOn i cond := fun rel s =>
  (hexec rel s).trans (congrArg _ (branchIf_eq (htaken s.ccr) rel s))

section
variable {i : Byte → Instr} {P : Ccr → Prop} [DecidablePred P]

/-- The model tests a Boolean expression over the flags, the statement decides a proposition. -/
theorem branchesOn_decide (taken : Ccr → Bool) (hexec : ∀ rel s, exec (i rel) s = .next (branchIf (taken s.ccr) rel s))
    (htaken : ∀ f, taken f = true ↔ P f) : BranchesOn i fun f => decide (P f) :=
  branchesOn_of_exec taken hexec fun f => (htaken f).trans decide_eq_true_iff.symm

/-- The second branch of a pair tests the complement of the first one's condition. -/
theorem branchesOn_complement {Q : Ccr → Prop} (taken : Ccr → Bool)
    (hexec : ∀ rel s, exec (i rel) s = .next (branchIf (!taken s.ccr) rel s)) (htaken : ∀ f, taken f = true ↔ Q f)
    (hnot : ∀ f, ¬Q f ↔ P f) : BranchesOn i fun f => decide (P f) :=
  branchesOn_decide (fun f => !taken f) hexec fun f => (not_eq_true_iff (htaken f)).trans (hnot f)

end

/-- `C or Z` (R303, R304). -/
theorem lowerOrSame_iff (f : Ccr) : (f.c || f.z) = true ↔ f.c = true ∨ f.z = true := Bool.or_eq_true_iff

/-- `N xor V` (R313, R314). -/
theorem less_iff (f : Ccr) : (f.n ^^ f.v) = true ↔ f.n ≠ f.v := Bool.xor_iff_ne

/-- `Z or (N xor V)` (R315, R316). -/
theorem lessOrEqual_iff (f : Ccr) : (f.z || (f.n ^^ f.v)) = true ↔ f.z = true ∨ f.n ≠ f.v :=
  Bool.or_eq_true_iff.trans (or_congr_right (less_iff f))

/-- Settles O53: one conditional jump with sixteen conditions, in pairs of complements. -/
theorem branchesByCondition : Obligations.BranchesByCondition := by
  have hclear : ∀ b : Bool, ¬b = true ↔ b = false := fun b => iff_of_eq (Bool.not_eq_true b)
  refine ⟨?bra, ?brn, ?bhi, ?bls, ?bcc, ?bcs, ?bne, ?beq, ?bvc, ?bvs, ?bpl, ?bmi, ?bge, ?blt, ?bgt, ?ble⟩
  case bra => exact branchesOn_of_exec (fun _ => true) (fun _ _ => rfl) fun _ => Iff.rfl
  case brn => exact branchesOn_of_exec (fun _ => false) (fun _ _ => rfl) fun _ => Iff.rfl
  case bhi =>
    exact branchesOn_complement (fun f => f.c || f.z) (fun _ _ => rfl) lowerOrSame_iff fun f => by
      rw [not_or, hclear, hclear]
  case bls => exact branchesOn_decide (fun f => f.c || f.z) (fun _ _ => rfl) lowerOrSame_iff
  case bcc => exact branchesOn_complement Ccr.c (fun _ _ => rfl) (fun _ => Iff.rfl) fun f => hclear f.c
  case bcs => exact branchesOn_decide Ccr.c (fun _ _ => rfl) fun _ => Iff.rfl
  case bne => exact branchesOn_complement Ccr.z (fun _ _ => rfl) (fun _ => Iff.rfl) fun f => hclear f.z
  case beq => exact branchesOn_decide Ccr.z (fun _ _ => rfl) fun _ => Iff.rfl
  case bvc => exact branchesOn_complement Ccr.v (fun _ _ => rfl) (fun _ => Iff.rfl) fun f => hclear f.v
  case bvs => exact branchesOn_decide Ccr.v (fun _ _ => rfl) fun _ => Iff.rfl
  case bpl => exact branchesOn_complement Ccr.n (fun _ _ => rfl) (fun _ => Iff.rfl) fun f => hclear f.n
  case bmi => exact branchesOn_decide Ccr.n (fun _ _ => rfl) fun _ => Iff.rfl
  case bge => exact branchesOn_complement (fun f => f.n ^^ f.v) (fun _ _ => rfl) less_iff fun _ => not_ne_iff
  case blt => exact branchesOn_decide (fun f => f.n ^^ f.v) (fun _ _ => rfl) less_iff
  case bgt =>
    exact branchesOn_complement (fun f => f.z || (f.n ^^ f.v)) (fun _ _ => rfl) lessOrEqual_iff fun f => by
      rw [not_or, hclear, not_ne_iff]
  case ble => exact branchesOn_decide (fun f => f.z || (f.n ^^ f.v)) (fun _ _ => rfl) lessOrEqual_iff

end Sys2Proof.Machine
end

section
/-! PROOF. System instructions (45_system.md): the stacking of R420, which WAI and SWI share, the entry that SWI takes after
it, and the return that pulls what an entry stacks. -/
namespace Sys2Proof.Machine

open Sys2Proof.Claims

/-! ### Stacking and entry (R348, R420, R421) -/

theorem stackAll_stores (s : State) :
    SameRegisters { s with sp := s.sp - 7 } (stackAll s) ∧ SameEngine s (stackAll s) ∧
      StoresBytes s s (stackAll s) (stackImage s) := by
  rw [stackAll_eq]
  exact writeAll_setSp_stores (stackImage_nodup s) s _

/-- Through any vector: after the stacking an entry only reads, so the array is the one the stacking leaves. -/
theorem takeException_enters (v : Word) (s : State) : Enters v s (takeException v s) := by
  obtain ⟨-, -, hstored, hkept, -⟩ := stackAll_stores s
  obtain ⟨hregs, -, -, hper⟩ := takeException_eq v s
  have hmem : (takeException v s).mem = (stackAll s).mem := vectorTo_mem ..
  rw [← hmem] at hstored hkept
  exact ⟨hregs, hstored, hkept, hper⟩

/-- Settles O58: SWI is an entry through its own vector, with no condition on I. -/
theorem softwareInterrupt : Obligations.SoftwareInterrupt := by
  intro s
  obtain ⟨-, hengine, -⟩ := takeException_eq s.cfg.vecSwi s
  exact ⟨_, rfl, takeException_enters s.cfg.vecSwi s, hengine⟩

/-! ### Return (R349) -/

theorem returnFromException_sameEngine (s : State) : SameEngine s (returnFromException s) := by simp [SameEngine]

/-- Settles O59: the five pulls are seven reads in address order, and the bytes of the statement are the ones read. -/
theorem returnFromInterrupt : Obligations.ReturnFromInterrupt := by
  intro s
  obtain ⟨c, b, a, xh, xl, ph, pl, hread, hregs, -, -, hper⟩ := returnFromException_spec s
  have hmem : SameMemory s (returnFromException s) := fun k => by rw [returnFromException_mem]
  refine ⟨_, rfl, fun c' b' a' xh' xl' ph' pl' hread' => ?_⟩
  obtain ⟨rfl, rfl, rfl, rfl, rfl, rfl, rfl⟩ : c = c' ∧ b = b' ∧ a = a' ∧ xh = xh' ∧ xl = xl' ∧ ph = ph' ∧ pl = pl' := by
    simpa using hread.symm.trans hread'
  exact ⟨hregs, hmem, returnFromException_sameEngine s, hper⟩

/-! ### Waiting and sleeping (R351, R352) -/

/-- Writing the wait state leaves the register file and the stores as they are. -/
theorem setWait_stores {s t r : State} {w : List (Word × Byte)} (k : WaitState)
    (h : SameRegisters r t ∧ SameEngine s t ∧ StoresBytes s s t w) :
    SameRegisters r { t with wait := k } ∧ SameEngine { s with wait := k } { t with wait := k } ∧
      StoresBytes s s { t with wait := k } w := by
  obtain ⟨hregs, ⟨-, hhalted, hcycles, hcfg, hfree⟩, hstores⟩ := h
  exact ⟨hregs, ⟨rfl, hhalted, hcycles, hcfg, hfree⟩, hstores⟩

/-- Settles O60: WAI is the stacking with the wait state written after it, SLP that write alone. -/
theorem waitAndSleep : Obligations.WaitAndSleep :=
  ⟨fun s => ⟨_, rfl, setWait_stores .wai (stackAll_stores s)⟩, fun _ => rfl⟩

/-! ### NOP and the flag instructions (R341 to R347) -/

/-- Settles O57: each meaning is its one flag written, or nothing. -/
theorem nopAndFlagInstructions : Obligations.NopAndFlagInstructions := fun _ =>
  ⟨rfl, rfl, rfl, rfl, rfl, rfl, rfl⟩

end Sys2Proof.Machine
end

section
/-! PROOF. Interrupt sources and the serial interface (60_exceptions.md): the fixed priority of R410, and the host's three
serial events against the program's reads of RDR and writes of TDR (R440 to R444). -/
namespace Sys2Proof.Machine

/-! ### Which source a step finds (R410, R414) -/

theorem pending_eq (s : State) : s.pending =
    if s.ocf = true ∧ s.eoci = true then some s.cfg.vecOcf
    else if (s.rdrf = true ∧ s.rie = true) ∨ (s.tdre = true ∧ s.tie = true) then some s.cfg.vecSci
    else none := by
  simp only [State.pending, Bool.and_eq_true, Bool.or_eq_true]

/-- Settles O12: each flag and enable of the test is one bit of its status register. -/
theorem pendingByFixedPriority : Obligations.PendingByFixedPriority := fun s => ⟨pending_eq s, rfl⟩

/-- R410: an enabled receive source leaves one vector or the other pending. -/
theorem pending_ne_none_of_receive {s : State} (hfull : s.rdrf = true) (henabled : s.rie = true) : s.pending ≠ none := by
  have hserial : (s.rdrf = true ∧ s.rie = true) ∨ (s.tdre = true ∧ s.tie = true) := .inl ⟨hfull, henabled⟩
  rw [pending_eq, if_pos hserial]
  split <;> exact Option.some_ne_none _

/-! ### A byte received (R440, R441) -/

theorem hostPush_full {s : State} (b : Byte) (h : s.rdrf = true) : hostPush b s = (false, s) := if_pos h

theorem hostPush_empty {s : State} (b : Byte) (h : s.rdrf = false) :
    hostPush b s = (true, { s with rdr := b, trcsr := s.trcsr ||| 0x80#8 }) :=
  if_neg (ne_true_of_eq_false h)

/-- Accepted or not, a push leaves the receiver full. -/
@[simp] theorem hostPush_rdrf (b : Byte) (s : State) : (hostPush b s).2.rdrf = true := by
  cases h : s.rdrf with
  | true => rwa [hostPush_full b h]
  | false =>
    rw [hostPush_empty b h]
    obtain ⟨⟨hset, -⟩, -⟩ := set_flags s.trcsr
    exact hset

@[simp] theorem hostPush_rie (b : Byte) (s : State) : (hostPush b s).2.rie = s.rie := by
  cases h : s.rdrf with
  | true => rw [hostPush_full b h]
  | false => simp [hostPush_empty b h, State.rie]

@[simp] theorem hostPush_cfg (b : Byte) (s : State) : (hostPush b s).2.cfg = s.cfg := by
  unfold hostPush
  split <;> rfl

theorem hostPush_rdr {s : State} (b : Byte) (h : s.rdrf = false) : (hostPush b s).2.rdr = b := by
  rw [hostPush_empty b h]

theorem hostPush_pending {s : State} (b : Byte) (h : s.rie = true) : (hostPush b s).2.pending ≠ none :=
  pending_ne_none_of_receive (hostPush_rdrf b s) ((hostPush_rie b s).trans h)

theorem State.peek_rdr_address {s : State} {p : Word} (h : regAt s.cfg p = some .rdr) : s.peek p = s.rdr :=
  congrArg Prod.fst (memRead_at_rdr h)

theorem State.touch_rdr_address_rdrf {s : State} {p : Word} (h : regAt s.cfg p = some .rdr) :
    (s.touch p).rdrf = false := by
  rw [State.touch_rdr_address h]
  obtain ⟨-, -, hclear, -⟩ := mask_flags s.trcsr
  exact hclear

/-- The program's read of RDR after an accepted push: the byte pushed, the full flag ended, the byte kept. -/
theorem hostPush_then_read {s : State} {p : Word} (b : Byte) (hp : regAt s.cfg p = some .rdr) (h : s.rdrf = false) :
    (hostPush b s).2.peek p = b ∧ ((hostPush b s).2.touch p).rdrf = false ∧ ((hostPush b s).2.touch p).rdr = b := by
  have haddr : regAt (hostPush b s).2.cfg p = some .rdr := by rwa [hostPush_cfg]
  exact ⟨(State.peek_rdr_address haddr).trans (hostPush_rdr b h), State.touch_rdr_address_rdrf haddr,
    (State.touch_rdr ..).trans (hostPush_rdr b h)⟩

/-! ### A byte transmitted (R442, R443) -/

theorem hostPull_pending {s : State} (h : s.txPending = true) :
    hostPull s = (some s.tdr, { s with txPending := false, trcsr := s.trcsr ||| 0x20#8 }) := if_pos h

theorem hostPull_idle {s : State} (h : s.txPending = false) : hostPull s = (none, s) :=
  if_neg (ne_true_of_eq_false h)

/-- Whether there was a byte or not, none is pending after a pull. -/
@[simp] theorem hostPull_txPending (s : State) : (hostPull s).2.txPending = false := by
  cases h : s.txPending with
  | true => rw [hostPull_pending h]
  | false => rwa [hostPull_idle h]

theorem hostPull_tdre {s : State} (h : s.txPending = true) : (hostPull s).2.tdre = true := by
  rw [hostPull_pending h]
  obtain ⟨-, -, -, -, hset⟩ := set_flags s.trcsr
  exact hset

/-- A pull right after another finds nothing. -/
theorem hostPull_twice (s : State) : hostPull (hostPull s).2 = (none, (hostPull s).2) :=
  hostPull_idle (hostPull_txPending s)

section
variable {s : State} {p : Word}

theorem memWrite_at_tdr_txPending (h : regAt s.cfg p = some .tdr) (v : Byte) : (memWrite p v s).txPending = true := by
  rw [memWrite_at_tdr h]

theorem memWrite_at_tdr_tdre (h : regAt s.cfg p = some .tdr) (v : Byte) : (memWrite p v s).tdre = false := by
  rw [memWrite_at_tdr h]
  obtain ⟨⟨-, -, hclear⟩, -⟩ := mask_flags s.trcsr
  exact hclear

/-- R443, R442: a pull after a program write of TDR returns the byte written, whatever was pending before. -/
theorem hostPull_memWrite_at_tdr (h : regAt s.cfg p = some .tdr) (v : Byte) : (hostPull (memWrite p v s)).1 = some v := by
  rw [hostPull_pending (memWrite_at_tdr_txPending h v), memWrite_at_tdr h]

end

/-! ### The round trips -/

/-- Settles O26: the two outcomes of a push and of a pull, and each across the program's access of its data register. -/
theorem serialRoundTrips : Obligations.SerialRoundTrips := by
  refine ⟨fun s b => ⟨hostPush_full b, fun h => ⟨hostPush_empty b h, hostPush_pending b⟩⟩, ?received,
    fun s => ⟨hostPull_pending, hostPull_idle, rfl⟩, ?transmitted⟩
  case received =>
    intro s b p hp h
    obtain ⟨hread, hended, hkept⟩ := hostPush_then_read b hp h
    exact ⟨hread, hostPush_rdrf b s, hended, hkept⟩
  case transmitted =>
    intro s v w p hp
    have hagain : regAt (memWrite p v s).cfg p = some .tdr := by rwa [memWrite_cfg]
    exact ⟨memWrite_at_tdr_tdre hp v, hostPull_memWrite_at_tdr hp v, hostPull_tdre (memWrite_at_tdr_txPending hp v),
      hostPull_twice _, hostPull_memWrite_at_tdr hagain w⟩

end Sys2Proof.Machine
end

section
/-! PROOF. Reset (70_reset_and_hazards.md): the event of R480 part by part, and the values of R57 and R481 that the reset
state holds. The read of the vector leaves every part that the event does not write, wherever the vector lies. -/
namespace Sys2Proof.Machine

open Sys2Proof.Claims

/-! ### The parts reset writes (R480) -/

@[simp] theorem resetEvent_pc (s : State) : (resetEvent s).pc = vectorValue s.cfg.vecReset s := rfl
@[simp] theorem resetEvent_tcsr (s : State) : (resetEvent s).tcsr = 0x00 := rfl
@[simp] theorem resetEvent_frc (s : State) : (resetEvent s).frc = 0x0000 := rfl
@[simp] theorem resetEvent_ocr (s : State) : (resetEvent s).ocr = 0xFFFF := rfl
@[simp] theorem resetEvent_trcsr (s : State) : (resetEvent s).trcsr = 0x20 := rfl
@[simp] theorem resetEvent_txPending (s : State) : (resetEvent s).txPending = false := rfl
@[simp] theorem resetEvent_ocArmed (s : State) : (resetEvent s).ocArmed = false := rfl
@[simp] theorem resetEvent_tofArmed (s : State) : (resetEvent s).tofArmed = false := rfl
@[simp] theorem resetEvent_wait (s : State) : (resetEvent s).wait = .run := rfl

/-- Of the flags reset writes I alone. -/
@[simp] theorem resetEvent_ccr (s : State) : (resetEvent s).ccr = { s.ccr with i := true } := rfl

/-! ### The parts reset leaves (R480) -/

@[simp] theorem resetEvent_a (s : State) : (resetEvent s).a = s.a := memRead16_a ..
@[simp] theorem resetEvent_b (s : State) : (resetEvent s).b = s.b := memRead16_b ..
@[simp] theorem resetEvent_x (s : State) : (resetEvent s).x = s.x := memRead16_x ..
@[simp] theorem resetEvent_sp (s : State) : (resetEvent s).sp = s.sp := memRead16_sp ..
@[simp] theorem resetEvent_mem (s : State) : (resetEvent s).mem = s.mem := memRead16_mem ..
@[simp] theorem resetEvent_rdr (s : State) : (resetEvent s).rdr = s.rdr := memRead16_rdr ..
@[simp] theorem resetEvent_tdr (s : State) : (resetEvent s).tdr = s.tdr := memRead16_tdr ..
@[simp] theorem resetEvent_cycles (s : State) : (resetEvent s).cycles = s.cycles := memRead16_cycles ..
@[simp] theorem resetEvent_free (s : State) : (resetEvent s).free = s.free := memRead16_free ..
@[simp] theorem resetEvent_cfg (s : State) : (resetEvent s).cfg = s.cfg := memRead16_cfg ..

/-! ### The whole event -/

theorem resetEvent_sameRegisters (s : State) :
    SameRegisters { s with pc := vectorValue s.cfg.vecReset s, ccr := { s.ccr with i := true } } (resetEvent s) := by
  simp [SameRegisters]

theorem resetEvent_sameEngine (s : State) : SameEngine { s with wait := .run, halted := false } (resetEvent s) := by
  simp [SameEngine]

/-- Settles O19: the register file and the engine as wholes, each peripheral part by its own rule. -/
theorem resetWritesExactlyTheseParts : Obligations.ResetWritesExactlyTheseParts := fun s =>
  ⟨resetEvent_sameRegisters s, resetEvent_tcsr s, resetEvent_frc s, resetEvent_ocr s, resetEvent_trcsr s,
    resetEvent_rdr s, resetEvent_tdr s, resetEvent_txPending s, resetEvent_ocArmed s, resetEvent_tofArmed s,
    resetEvent_mem s, resetEvent_sameEngine s⟩

/-! ### The reset state (R57, R481) -/

/-- The reset state's memory lists nothing, so each of its plain bytes reads 0x00. -/
theorem reset_peek_plain {p : Word} (h : Plain State.reset p) : State.reset.peek p = 0x00 :=
  (State.peek_plain h).trans (Memory.read_nil _)

/-- Both bytes of the reset vector are plain there, and the read of the first has no side effect on that of the second. -/
theorem reset_vectorValue : vectorValue State.reset.cfg.vecReset State.reset = 0x0000 := by
  have hfirst : Plain State.reset State.reset.cfg.vecReset := rfl
  have hsecond : Plain State.reset (State.reset.cfg.vecReset + 1) := rfl
  rw [vectorValue, State.touch_plain hfirst, reset_peek_plain hfirst, reset_peek_plain hsecond]
  rfl

/-- Settles O20: PC is the word of two unlisted bytes, and every other value stands in the reset state as the spec has it. -/
theorem resetStateHoldsTheStatedValues : Obligations.ResetStateHoldsTheStatedValues :=
  ⟨reset_vectorValue.symm, rfl, rfl, rfl, rfl, rfl, rfl, rfl, rfl, rfl, rfl, rfl⟩

end Sys2Proof.Machine
end

section
/-! PROOF. Encoder and decoder (30_encoding.md): each encoding decodes whatever bytes follow it, by the shapes the
instructions share; and each entry of R100's map encodes to its own opcode with as many operand bytes as it has. -/
namespace Sys2Proof

open Sys2Proof.Machine

/-! ### Decoding an encoding (R94, R100) -/

/-- The bytes stand for the instruction, whatever follows them. -/
def DecodesTo (bs : List Byte) (i : Instr) : Prop := ∀ rest, decode (bs ++ rest) = .ok (i, rest)

theorem operandCount_le : ∀ op, operandCount op ≤ 2 := by decide

/-- R91, R96: an opcode takes as many operand bytes as it has, and leaves the rest. -/
theorem decode_operands {op : Byte} {ops : List Byte} (h : operandCount op = ops.length) (r : List Byte) :
    decode (op :: ops ++ r) = .ok (decodeOp op (ops.getD 0 0) (ops.getD 1 0), r) := by
  have hle : operandCount op ≤ 2 := operandCount_le op
  rw [h] at hle
  delta decode
  match ops, h, hle with
  | [], h, _ | [_], h, _ | [_, _], h, _ => dsimp only [List.cons_append, List.nil_append]; rw [h]; rfl

/-- A 16-bit field is decoded from its two bytes, the high one first. -/
theorem decodesTo_enc2 {i : Word → Instr} {op : Byte} (h : ∀ b1 b2, DecodesTo [op, b1, b2] (i (cat b1 b2))) (v : Word) :
    DecodesTo (enc2 op v) (i v) := by
  have hv := h (hi v) (lo v)
  rwa [cat_hi_lo] at hv

section
variable {opDir opIdx opExt : Byte}

theorem decodesTo_encMode {i : Mode → Instr} (hdir : ∀ b, DecodesTo [opDir, b] (i (.dir b)))
    (hidx : ∀ b, DecodesTo [opIdx, b] (i (.idx b))) (hext : ∀ b1 b2, DecodesTo [opExt, b1, b2] (i (.ext (cat b1 b2))))
    (m : Mode) : DecodesTo (encMode opDir opIdx opExt m) (i m) := by
  cases m with
  | dir b => exact hdir b
  | idx b => exact hidx b
  | ext v => exact decodesTo_enc2 (i := fun w => i (.ext w)) hext v

theorem decodesTo_encModeXE {i : ModeXE → Instr} (hidx : ∀ b, DecodesTo [opIdx, b] (i (.idx b)))
    (hext : ∀ b1 b2, DecodesTo [opExt, b1, b2] (i (.ext (cat b1 b2)))) (m : ModeXE) :
    DecodesTo (encModeXE opIdx opExt m) (i m) := by
  cases m with
  | idx b => exact hidx b
  | ext v => exact decodesTo_enc2 (i := fun w => i (.ext w)) hext v

theorem decodesTo_encModeDX {i : ModeDX → Instr} {mask : Byte} (hdir : ∀ b, DecodesTo [opDir, mask, b] (i (.dir b)))
    (hidx : ∀ b, DecodesTo [opIdx, mask, b] (i (.idx b))) (m : ModeDX) :
    DecodesTo (encModeDX opDir opIdx mask m) (i m) := by
  cases m with
  | dir b => exact hdir b
  | idx b => exact hidx b

theorem decodesTo_encSrc8 {i : Src8 → Instr} {opImm : Byte} (himm : ∀ b, DecodesTo [opImm, b] (i (.imm b)))
    (hmem : ∀ m, DecodesTo (encMode opDir opIdx opExt m) (i (.mem m))) (src : Src8) :
    DecodesTo (encSrc8 opImm opDir opIdx opExt src) (i src) := by
  cases src with
  | imm b => exact himm b
  | mem m => exact hmem m

theorem decodesTo_encSrc16 {i : Src16 → Instr} {opImm : Byte}
    (himm : ∀ b1 b2, DecodesTo [opImm, b1, b2] (i (.imm (cat b1 b2))))
    (hmem : ∀ m, DecodesTo (encMode opDir opIdx opExt m) (i (.mem m))) (src : Src16) :
    DecodesTo (encSrc16 opImm opDir opIdx opExt src) (i src) := by
  cases src with
  | imm v => exact decodesTo_enc2 (i := fun w => i (.imm w)) himm v
  | mem m => exact hmem m

end

/-- R112: an opcode listed as undefined has no operand bytes. -/
theorem operandCount_illegal : ∀ op ∈ illegalOpcodes, operandCount op = 0 := by decide

theorem decodesTo_illegal {op : Byte} (h : op ∈ illegalOpcodes) : DecodesTo [op] (.illegal op) := by
  intro rest
  have hentry : decodeOp op 0 0 = .illegal op := decodeOp_eq_illegal_iff.mpr ⟨h, rfl⟩
  rw [← hentry]
  exact decode_operands (ops := []) (operandCount_illegal op h) rest

/-- An entry of R100's map is looked up by its opcode; only an undefined one has to be in R112's list. -/
theorem decodesTo_encode (i : Instr) (hwf : i.wf = true) : DecodesTo (encode i) i := by
  cases i
  case illegal op => exact decodesTo_illegal (List.contains_iff_mem.mp hwf)
  case ldaa src | ldab src | adda src | addb src | adca src | adcb src | suba src | subb src | sbca src | sbcb src |
      cmpa src | cmpb src | anda src | andb src | oraa src | orab src | eora src | eorb src | bita src | bitb src =>
    exact decodesTo_encSrc8 (fun _ _ => rfl)
      (decodesTo_encMode (fun _ _ => rfl) (fun _ _ => rfl) (fun _ _ _ => rfl)) src
  case ldd src | ldx src | lds src | addd src | subd src | cpx src =>
    exact decodesTo_encSrc16 (fun _ _ _ => rfl)
      (decodesTo_encMode (fun _ _ => rfl) (fun _ _ => rfl) (fun _ _ _ => rfl)) src
  case staa m | stab m | std m | stx m | sts m | jsr m =>
    exact decodesTo_encMode (fun _ _ => rfl) (fun _ _ => rfl) (fun _ _ _ => rfl) m
  case neg m | inc m | dec m | tst m | com m | clr m | asl m | asr m | lsr m | rol m | ror m | jmp m =>
    exact decodesTo_encModeXE (fun _ _ => rfl) (fun _ _ _ => rfl) m
  case aim mask m | oim mask m | eim mask m | tim mask m =>
    exact decodesTo_encModeDX (fun _ _ => rfl) (fun _ _ => rfl) m
  all_goals exact fun _ => rfl

/-- Settles O1: each encoding decodes to its instruction and leaves the bytes that follow. -/
theorem decodeOfEncode : Obligations.DecodeOfEncode := fun i rest hwf => decodesTo_encode i hwf rest

/-! ### Encoding what was decoded (R91, R100)

An entry's encoding is an initial piece of opcode and two operand bytes; its length is that of its format. -/

theorem enc2_cat_prefix (op b1 b2 : Byte) : enc2 op (cat b1 b2) <+: [op, b1, b2] := by
  rw [enc2, hi_cat, lo_cat]

/-- Row by row of R100's map: in rows `B_` and `F_` every operand is a 16-bit field, in rows `7_`, `8_` and `C_` some
are. -/
theorem encode_decodeOp_prefix (op b1 b2 : Byte) : encode (decodeOp op b1 b2) <+: [op, b1, b2] := by
  obtain ⟨r, hr, hrow⟩ : ∃ r < 16, op.toNat / 16 = r := ⟨_, by have := op.isLt; omega, rfl⟩
  obtain ⟨n, hn, hcol⟩ : ∃ n < 16, op.toNat % 16 = n := ⟨_, Nat.mod_lt _ (by decide), rfl⟩
  have hop : op = BitVec.ofNat 8 (16 * r + n) := by
    rw [← hrow, ← hcol, Nat.div_add_mod, BitVec.ofNat_toNat, BitVec.setWidth_eq]
  rw [decodeOp, hrow, hcol, hop]
  clear hop hrow hcol
  match r, hr with
  | 7, _ =>
    match n, hn with
    | 1, _ | 2, _ | 5, _ | 11, _ => exact ⟨_, rfl⟩
    | 0, _ | 3, _ | 4, _ | 6, _ | 7, _ | 8, _ | 9, _ | 10, _ | 12, _ | 13, _ | 14, _ | 15, _ => exact enc2_cat_prefix ..
    | _ + 16, h => omega
  | 8, _ | 12, _ =>
    match n, hn with
    | 3, _ | 12, _ | 14, _ => exact enc2_cat_prefix ..
    | 0, _ | 1, _ | 2, _ | 4, _ | 5, _ | 6, _ | 7, _ | 8, _ | 9, _ | 10, _ | 11, _ | 13, _ | 15, _ => exact ⟨_, rfl⟩
    | _ + 16, h => omega
  | 11, _ | 15, _ => interval_cases n <;> exact enc2_cat_prefix ..
  | 0, _ | 1, _ | 2, _ | 3, _ | 4, _ | 5, _ | 6, _ | 9, _ | 10, _ | 13, _ | 14, _ =>
    interval_cases n <;> exact ⟨_, rfl⟩
  | _ + 16, h => omega

/-- R91: the operand bytes do not reach the format. The rows that take none have nothing to compare. -/
theorem format_decodeOp_operands (op b1 b2 : Byte) : (decodeOp op b1 b2).format = (decodeOp op 0 0).format := by
  unfold decodeOp
  split
  case h_1 | h_2 | h_4 | h_5 | h_6 => rfl
  case h_3 => unfold decodeRow2; split <;> rfl
  case h_7 => unfold decodeRow6; split <;> rfl
  case h_8 => unfold decodeRow7; split <;> rfl
  case h_9 => unfold decodeRow8; split <;> rfl
  case h_10 => unfold decodeRow9; split <;> rfl
  case h_11 => unfold decodeRowA; split <;> rfl
  case h_12 => unfold decodeRowB; split <;> rfl
  case h_13 => unfold decodeRowC; split <;> rfl
  case h_14 => unfold decodeRowD; split <;> rfl
  case h_15 => unfold decodeRowE; split <;> rfl
  case h_16 => unfold decodeRowF; split <;> rfl

theorem encMode_length (opDir opIdx opExt : Byte) (m : Mode) :
    (encMode opDir opIdx opExt m).length = m.format.length := by
  cases m <;> rfl

theorem encModeXE_length (opIdx opExt : Byte) (m : ModeXE) : (encModeXE opIdx opExt m).length = m.format.length := by
  cases m <;> rfl

theorem encModeDX_length (opDir opIdx mask : Byte) (m : ModeDX) :
    (encModeDX opDir opIdx mask m).length = m.format.length := by
  cases m <;> rfl

theorem encSrc8_length (opImm opDir opIdx opExt : Byte) (src : Src8) :
    (encSrc8 opImm opDir opIdx opExt src).length = src.format.length := by
  cases src with
  | imm b => rfl
  | mem m => exact encMode_length ..

theorem encSrc16_length (opImm opDir opIdx opExt : Byte) (src : Src16) :
    (encSrc16 opImm opDir opIdx opExt src).length = src.format.length := by
  cases src with
  | imm v => rfl
  | mem m => exact encMode_length ..

/-- R94, R96: the bytes are as many as the format says. -/
theorem encode_length (i : Instr) : (encode i).length = i.format.length := by
  cases i
  case ldaa | ldab | adda | addb | adca | adcb | suba | subb | sbca | sbcb | cmpa | cmpb | anda | andb | oraa | orab |
      eora | eorb | bita | bitb =>
    exact encSrc8_length ..
  case ldd | ldx | lds | addd | subd | cpx => exact encSrc16_length ..
  case staa | stab | std | stx | sts | jsr => exact encMode_length ..
  case neg | inc | dec | tst | com | clr | asl | asr | lsr | rol | ror | jmp => exact encModeXE_length ..
  case aim | oim | eim | tim => exact encModeDX_length ..
  all_goals rfl

theorem Format.length_pos (f : Format) : 0 < f.length := by cases f <;> decide

theorem encode_decodeOp_length (op b1 b2 : Byte) : (encode (decodeOp op b1 b2)).length = operandCount op + 1 := by
  rw [encode_length, format_decodeOp_operands, operandCount, Nat.sub_add_cancel (Format.length_pos _)]

theorem encode_decodeOp (op b1 b2 : Byte) : encode (decodeOp op b1 b2) = op :: [b1, b2].take (operandCount op) := by
  rw [List.prefix_iff_eq_take.mp (encode_decodeOp_prefix op b1 b2), encode_decodeOp_length, List.take_succ_cons]

/-- Settles O3: the format is that with operand bytes 0, the encoding the opcode and as many operand bytes as it has. -/
theorem opcodeAloneFixesTheFormat : Obligations.OpcodeAloneFixesTheFormat := fun op b1 b2 c1 c2 =>
  ⟨(format_decodeOp_operands op b1 b2).trans (format_decodeOp_operands op c1 c2).symm, encode_decodeOp_length op b1 b2,
    by rw [encode_decodeOp, List.head?_cons]⟩

/-! ### What a decoded list of bytes was -/

/-- Everything a list that decodes can be: its opcode, the operand bytes that opcode has, and the rest. -/
theorem decode_ok_cases {bs rest : List Byte} {i : Instr} (h : decode bs = .ok (i, rest)) :
    ∃ op ops, bs = op :: ops ++ rest ∧ ops.length = operandCount op ∧
      i = decodeOp op (ops.getD 0 0) (ops.getD 1 0) ∧ ops = [ops.getD 0 0, ops.getD 1 0].take (operandCount op) := by
  fun_cases decode bs
  case case1 => cases h
  case case2 op r hcount =>
    cases (decode_operands (ops := []) hcount r).symm.trans h
    exact ⟨op, [], rfl, hcount.symm, rfl, by rw [hcount]; rfl⟩
  case case3 op b1 r hcount =>
    cases (decode_operands (ops := [b1]) hcount r).symm.trans h
    exact ⟨op, [b1], rfl, hcount.symm, rfl, by rw [hcount]; rfl⟩
  case case4 op b1 b2 r hcount =>
    cases (decode_operands (ops := [b1, b2]) hcount r).symm.trans h
    exact ⟨op, [b1, b2], rfl, hcount.symm, rfl, by rw [hcount]; rfl⟩
  case case5 =>
    simp only [decode] at h
    cases h

/-- R112, R113: only an undefined instruction has an operand to check, its opcode. -/
theorem wf_decodeOp (op b1 b2 : Byte) : (decodeOp op b1 b2).wf = true := by
  cases h : decodeOp op b1 b2
  case illegal k =>
    obtain ⟨hmem, rfl⟩ := decodeOp_eq_illegal_iff.mp h
    exact List.contains_iff_mem.mpr hmem
  all_goals rfl

/-- Settles O2: the bytes are the opcode of an entry of R100's map with its operand bytes, which the entry encodes to. -/
theorem encodeOfDecode : Obligations.EncodeOfDecode := by
  intro bs rest i h
  obtain ⟨op, ops, rfl, -, rfl, hops⟩ := decode_ok_cases h
  exact ⟨by rw [encode_decodeOp, ← hops], wf_decodeOp ..⟩

/-- Settles O5: each list is looked up by its first byte. -/
theorem specBytesDecode : Obligations.SpecBytesDecode :=
  ⟨rfl, rfl, rfl, rfl, rfl, rfl, rfl, rfl, rfl, rfl⟩

end Sys2Proof
end

section
/-! PROOF. What an instruction can do to memory and peripherals, said once for all of them: program reads of any address,
program writes to its own store addresses, and changes of the registers and the engine. Frames and invariants are read off
this. -/
namespace Sys2Proof.Machine

/-- `t` comes from `s` by program reads, program writes to addresses of `l`, and changes that no access can tell. -/
inductive Accesses (l : List Word) (s : State) : State → Prop where
  /-- No access at all. -/
  | start : Accesses l s s
  /-- One more byte read (R62). -/
  | read {t : State} (p : Word) (h : Accesses l s t) : Accesses l s (t.touch p)
  /-- One more byte written (R63). -/
  | write {t : State} {p : Word} (v : Byte) (hp : p ∈ l) (h : Accesses l s t) : Accesses l s (memWrite p v t)
  /-- Registers or engine changed. -/
  | change {t u : State} (h : Accesses l s t) (hsame : SameForAccess t u) : Accesses l s u

namespace Accesses

variable {l : List Word} {s t u : State}

/-! ### What accesses leave -/

theorem cfg (h : Accesses l s t) : t.cfg = s.cfg := by
  induction h with
  | start => rfl
  | read p _ ih => exact (State.touch_cfg ..).trans ih
  | write v _ _ ih => exact (memWrite_cfg ..).trans ih
  | change _ hsame ih => exact hsame.1.trans ih

/-- Every byte of the array outside `l` reads as before. -/
theorem read_ne {k : Nat} (h : Accesses l s t) (hk : ∀ p ∈ l, k ≠ p.toNat) : t.mem.read k = s.mem.read k := by
  induction h with
  | start => rfl
  | read p _ ih => rw [State.touch_mem, ih]
  | write v hp _ ih => rw [memWrite_read_ne _ v _ fun _ => hk _ hp, ih]
  | change _ hsame ih =>
    obtain ⟨-, hmem, -⟩ := hsame
    rw [hmem, ih]

/-- With no address to store to the array is the same data. -/
theorem mem_of_nil (h : Accesses [] s t) : t.mem = s.mem := by
  induction h with
  | start => rfl
  | read p _ ih => rw [State.touch_mem, ih]
  | write v hp _ _ => exact absurd hp List.not_mem_nil
  | change _ hsame ih =>
    obtain ⟨-, hmem, -⟩ := hsame
    rw [hmem, ih]

/-- R62, R63, R72: and so do the peripherals, each unless an address of `l` is its own. -/
theorem outside (h : Accesses l s t) : SamePeripheralsOutside l s t := by
  induction h with
  | start => exact (SamePeripherals.refl s).outside l
  | read p h ih => exact ih.trans h.cfg (State.touch_outside _ p l)
  | write v hp h ih => exact ih.trans h.cfg (memWrite_outside _ v _ hp)
  | change h hsame ih =>
    obtain ⟨-, -, hper⟩ := hsame
    exact ih.trans h.cfg (hper.outside l)

theorem rdr (h : Accesses l s t) : t.rdr = s.rdr := by
  obtain ⟨hrdr, -⟩ := h.outside
  exact hrdr

theorem frc_of_nil (h : Accesses [] s t) : t.frc = s.frc := by
  obtain ⟨-, hfrc, -⟩ := h.outside
  exact hfrc fun _ hp => absurd hp List.not_mem_nil

/-- Each access keeps the invariant of the machine. -/
theorem inv (h : Accesses l s t) (hs : MachineInv s) : MachineInv t := by
  induction h with
  | start => exact hs
  | read p _ ih => exact touch_inv ih p
  | write v _ _ ih => exact memWrite_inv ih _ v
  | change _ hsame ih => exact ih.congr hsame

/-! ### Sequences of accesses -/

/-- The accesses seen from a state that differs in registers or engine. -/
theorem of_same (h : SameForAccess s t) : Accesses l s t := .change .start h

theorem setAcc (h : Accesses l s t) (r : Acc) (v : Byte) : Accesses l s (t.setAcc r v) := by
  cases r <;> exact .change h ⟨rfl, rfl, SamePeripherals.refl _⟩

theorem setCcr (h : Accesses l s t) (f : Ccr) : Accesses l s { t with ccr := f } :=
  .change h ⟨rfl, rfl, SamePeripherals.refl _⟩

theorem setSp (h : Accesses l s t) (q : Word) : Accesses l s { t with sp := q } :=
  .change h ⟨rfl, rfl, SamePeripherals.refl _⟩

theorem setPc (h : Accesses l s t) (q : Word) : Accesses l s { t with pc := q } :=
  .change h ⟨rfl, rfl, SamePeripherals.refl _⟩

theorem setX (h : Accesses l s t) (v : Word) : Accesses l s { t with x := v } :=
  .change h ⟨rfl, rfl, SamePeripherals.refl _⟩

theorem setWait (h : Accesses l s t) (w : WaitState) : Accesses l s { t with wait := w } :=
  .change h ⟨rfl, rfl, SamePeripherals.refl _⟩

theorem read16 (p : Word) (h : Accesses l s t) : Accesses l s (memRead16 p t).2 := .read _ (.read _ h)

theorem readAll (ps : List Word) (h : Accesses l s t) : Accesses l s (readAll ps t).2 := by
  induction ps generalizing t with
  | nil => exact h
  | cons p ps ih => exact ih (.read p h)

theorem writeAll {w : List (Word × Byte)} (hw : ∀ p ∈ w, p.1 ∈ l) (h : Accesses l s t) :
    Accesses l s (writeAll w t) := by
  induction w generalizing t with
  | nil => exact h
  | cons p w ih => exact ih (fun q hq => hw q (List.mem_cons_of_mem p hq)) (.write p.2 (hw p List.mem_cons_self) h)

theorem afterSrc8 (src : Src8) (h : Accesses l s t) : Accesses l s (afterSrc8 src t) := by
  cases src with
  | imm v => exact h
  | mem m => exact .read _ h

theorem afterSrc16 (src : Src16) (h : Accesses l s t) : Accesses l s (afterSrc16 src t) := by
  cases src with
  | imm v => exact h
  | mem m => exact .read16 _ h

end Accesses

/-! ### The accesses of each shape of instruction -/

section
variable {l : List Word} (s : State) {t : State}

theorem opnd16_accesses (src : Src16) : Accesses l s (opnd16 src s).2 := by
  rw [opnd16_eq]
  exact .afterSrc16 src .start

theorem loadAcc_accesses (r : Acc) (src : Src8) : Accesses l s (loadAcc r src s) := by
  rw [loadAcc_eq]
  exact ((Accesses.start.afterSrc8 src).setCcr _).setAcc r _

theorem accOp_accesses (op : Byte → Byte → Ccr → Alu8) (r : Acc) (src : Src8) : Accesses l s (accOp op r src s) := by
  rw [accOp_eq]
  exact ((Accesses.start.afterSrc8 src).setCcr _).setAcc r _

theorem accTest_accesses (op : Byte → Byte → Ccr → Alu8) (r : Acc) (src : Src8) :
    Accesses l s (accTest op r src s) := by
  rw [accTest_eq]
  exact (Accesses.start.afterSrc8 src).setCcr _

theorem accUnary_accesses (op : Byte → Ccr → Alu8) (r : Acc) : Accesses l s (accUnary op r s) :=
  (Accesses.start.setAcc r _).setCcr _

theorem memUnary_accesses (op : Byte → Ccr → Alu8) (m : Mode) : Accesses [s.ea m] s (memUnary op m s) :=
  .setCcr (.write _ List.mem_cons_self (.read _ .start)) _

theorem store8_accesses (v : Byte) (m : Mode) : Accesses [s.ea m] s (store8 v m s) :=
  .write v List.mem_cons_self (.setCcr .start _)

theorem store16_accesses (v : Word) (m : Mode) : Accesses [s.ea m, s.ea m + 1] s (store16 v m s) := by
  rw [store16_eq]
  exact .writeAll (fun _ => List.mem_map_of_mem) (.setCcr .start _)

theorem push8_accesses (v : Byte) : Accesses [s.sp] s (push8 v s) := by
  rw [push8_eq]
  exact .setSp (.write v List.mem_cons_self .start) _

theorem push16_accesses (v : Word) : Accesses [s.sp, s.sp - 1] s (push16 v s) := by
  rw [push16_eq]
  exact .setSp (.writeAll (w := [(s.sp, lo v), (s.sp - 1, hi v)]) (fun _ => List.mem_map_of_mem) .start) _

theorem callTo_accesses (target : Word) : Accesses [s.sp, s.sp - 1] s (callTo target s) :=
  (push16_accesses s s.pc).setPc target

theorem pull8_accesses : Accesses l s (pull8 s).2 := by
  obtain ⟨-, hsame⟩ := pull8_spec (SameForAccess.refl s)
  exact .change (.read _ .start) hsame

theorem pull16_accesses : Accesses l s (pull16 s).2 := by
  obtain ⟨-, hsame⟩ := pull16_spec (SameForAccess.refl s)
  exact .change (.read16 _ .start) hsame

theorem branchIf_accesses (taken : Bool) (rel : Byte) : Accesses l s (branchIf taken rel s) := by
  cases taken
  · exact .start
  · exact .of_same ⟨rfl, rfl, SamePeripherals.refl _⟩

/-- The addresses an entry stacks at (R420). -/
theorem stackAll_accesses : Accesses ((stackImage s).map Prod.fst) s (stackAll s) := by
  rw [stackAll_eq]
  exact .setSp (.writeAll (fun _ => List.mem_map_of_mem) .start) _

theorem vectorTo_accesses (v : Word) : Accesses l s (vectorTo v s) := by
  obtain ⟨-, -, -, hper⟩ := vectorTo_eq v s
  exact .change (.read16 v .start) ⟨by simp, by simp, hper⟩

theorem takeException_accesses (v : Word) : Accesses ((stackImage s).map Prod.fst) s (takeException v s) := by
  obtain ⟨-, -, hmem, hper⟩ := takeException_eq v s
  exact .change (.read16 v (.writeAll (fun _ => List.mem_map_of_mem) .start)) ⟨by simp, by simpa using hmem, hper⟩

theorem returnFromException_accesses : Accesses l s (returnFromException s) := by
  obtain ⟨-, -, -, -, -, -, -, -, -, hsame⟩ := returnFromException_spec s
  exact .change (.readAll _ .start) hsame

/-- A fetch reads, and moves PC (R92). -/
theorem fetchBytes_accesses (n : Nat) (h : Accesses l s t) : Accesses l s (fetchBytes n t).2 := by
  induction n generalizing t with
  | zero => exact h
  | succ n ih => exact ih (.setPc (.read t.pc h) _)

end

/-! ### Every instruction (R73) -/

theorem exec_accesses {i : Instr} {s t : State} (h : exec i s = .next t) : Accesses (storeAddrs i s) s t := by
  cases i
  case illegal => cases h
  all_goals
    injection h with h
    subst h
  case ldaa | ldab => exact loadAcc_accesses ..
  case adda | addb | adca | adcb | suba | subb | sbca | sbcb | anda | andb | oraa | orab | eora | eorb =>
    exact accOp_accesses ..
  case cmpa | cmpb | bita | bitb => exact accTest_accesses ..
  case ldd src | ldx src | lds src | addd src | subd src | cpx src =>
    exact .change (opnd16_accesses s src) ⟨rfl, rfl, SamePeripherals.refl _⟩
  case nega | negb | inca | incb | deca | decb | coma | comb | asla | aslb | asra | asrb | lsra | lsrb | rola | rolb |
      rora | rorb =>
    exact accUnary_accesses ..
  case neg | inc | dec | com | asl | asr | lsr | rol | ror | aim | oim | eim => exact memUnary_accesses ..
  case clr => exact .setCcr (.write 0 List.mem_cons_self .start) _
  case tst | tim => exact .setCcr (.read _ .start) _
  case staa | stab => exact store8_accesses ..
  case std | stx | sts => exact store16_accesses ..
  case psha | pshb => exact push8_accesses ..
  case pshx => exact push16_accesses ..
  case jsr | bsr => exact callTo_accesses ..
  case pula => exact (pull8_accesses s).setAcc .A _
  case pulb => exact (pull8_accesses s).setAcc .B _
  case pulx => exact (pull16_accesses s).setX _
  case rts => exact (pull16_accesses s).setPc _
  case bra | brn | bhi | bls | bcc | bcs | bne | beq | bvc | bvs | bpl | bmi | bge | blt | bgt | ble =>
    exact branchIf_accesses ..
  case swi => exact takeException_accesses ..
  case rti => exact returnFromException_accesses s
  case wai => exact (stackAll_accesses s).setWait .wai
  all_goals exact .of_same ⟨rfl, rfl, SamePeripherals.refl _⟩

/-- Settles O33: of the accesses of an instruction only its stores write, and each at one of its store addresses. -/
theorem storesGoNowhereElse : Obligations.StoresGoNowhereElse := by
  intro i s t h
  have haccesses := exec_accesses h
  refine ⟨fun k hk => haccesses.read_ne hk, fun hnone => ?unstored, haccesses.outside⟩
  case unstored =>
    rw [hnone] at haccesses
    exact haccesses.mem_of_nil

end Sys2Proof.Machine
end

section
/-! PROOF. The invariant of the machine along every step and every host event: an instruction, an entry and a wake-up are
accesses, which keep it; an advance of the timer only sets flags; and each host event writes its own parts. -/
namespace Sys2Proof.Machine

/-! ### Steps (R122) -/

/-- A sleeping machine that runs again differs in the engine alone (R127). -/
theorem Awake.sameForAccess {s s' : State} (h : Awake s s') : SameForAccess s s' := by
  obtain ⟨-, ⟨-, rfl⟩ | ⟨-, -, rfl⟩⟩ := h
  · exact SameForAccess.refl s'
  · exact ⟨rfl, rfl, SamePeripherals.refl _⟩

theorem takeException_inv {s : State} (h : MachineInv s) (v : Word) : MachineInv (takeException v s) :=
  (takeException_accesses s v).inv h

/-- The wait state is written before the vector is read (R126). -/
theorem wakeFromWai_inv {s : State} (h : MachineInv s) (v : Word) : MachineInv (wakeFromWai v s) := by
  have hrun : MachineInv { s with wait := .run } := h.congr ⟨rfl, rfl, SamePeripherals.refl _⟩
  have hwoken : MachineInv (vectorTo v { s with wait := .run }) := (vectorTo_accesses (l := []) _ v).inv hrun
  exact advance_inv hwoken _

/-- An instruction after the fetch of `n` bytes. -/
theorem fetched_exec_inv {s t : State} {i : Instr} {n : Nat} (h : MachineInv s)
    (hexec : exec i (fetchBytes n s).2 = .next t) : MachineInv t := by
  have hfetched : MachineInv (fetchBytes n s).2 := (fetchBytes_accesses (l := []) s n .start).inv h
  exact (exec_accesses hexec).inv hfetched

/-- Settles O29: each of the things a step can be is made of accesses and one advance. -/
theorem invariantKeptByEveryStep : Obligations.InvariantKeptByEveryStep := by
  intro s t h hstep
  obtain ⟨-, rfl⟩ | ⟨-, -, rfl⟩ | ⟨v, -, -, -, rfl⟩ | ⟨v, s', hawake, -, rfl⟩ | ⟨s', u, hawake, -, hexec, rfl⟩ :=
    step_next_cases hstep
  · exact h
  · exact advance_inv h _
  · exact wakeFromWai_inv h v
  · exact advance_inv (takeException_inv (h.congr hawake.sameForAccess) v) _
  · exact advance_inv (fetched_exec_inv (h.congr hawake.sameForAccess) hexec) _

/-! ### Faults (R400) -/

theorem setHalted_inv {s : State} (h : MachineInv s) : MachineInv { s with halted := true } :=
  h.congr ⟨rfl, rfl, SamePeripherals.refl _⟩

theorem step_fault_inv {s : State} {r : Fault} (h : MachineInv s) (hstep : step s = .fault r) : MachineInv r.after := by
  obtain ⟨s', hawake, rfl | hexec⟩ := step_fault_cases hstep
  · exact setHalted_inv (h.congr hawake.sameForAccess)
  · obtain ⟨op, -, rfl⟩ := exec_fault_cases hexec
    exact setHalted_inv ((fetchBytes_accesses (l := []) s' _ .start).inv (h.congr hawake.sameForAccess))

/-! ### Host events (R78, R440, R442, R444, R480) -/

/-- Reset writes every part that the second half of the invariant speaks of. -/
theorem resetEvent_inv {s : State} (h : MachineInv s) : MachineInv (resetEvent s) := by
  obtain ⟨⟨hwf, hhidden⟩, -⟩ := h
  refine ⟨?memory, ?icf, nofun, nofun, ?tdre⟩
  case memory =>
    rw [MemoryInv, resetEvent_mem, resetEvent_cfg]
    exact ⟨hwf, hhidden⟩
  case icf =>
    rw [resetEvent_tcsr]
    rfl
  case tdre =>
    rw [State.tdre, resetEvent_trcsr, resetEvent_txPending]
    rfl

theorem hostPush_inv {s : State} (h : MachineInv s) (b : Byte) : MachineInv (hostPush b s).2 := by
  cases hfull : s.rdrf with
  | true => rwa [hostPush_full b hfull]
  | false =>
    rw [hostPush_empty b hfull]
    obtain ⟨hmem, hicf, hoc, htof, htdre⟩ := h
    obtain ⟨⟨-, -, hkeeps⟩, -⟩ := set_flags s.trcsr
    exact ⟨hmem, hicf, hoc, htof, hkeeps.trans htdre⟩

theorem hostPull_inv {s : State} (h : MachineInv s) : MachineInv (hostPull s).2 := by
  cases hpending : s.txPending with
  | true =>
    obtain ⟨hmem, hicf, hoc, htof, -⟩ := h
    have htdre := hostPull_tdre hpending
    rw [hostPull_pending hpending] at htdre ⊢
    exact ⟨hmem, hicf, hoc, htof, htdre⟩
  | false => rwa [hostPull_idle hpending]

theorem hostOverrun_inv {s : State} (h : MachineInv s) : MachineInv (hostOverrun s) := by
  obtain ⟨hmem, hicf, hoc, htof, htdre⟩ := h
  obtain ⟨-, ⟨-, -, hkeeps⟩, -⟩ := set_flags s.trcsr
  exact ⟨hmem, hicf, hoc, htof, hkeeps.trans htdre⟩

/-- At a plain address a poke is the program write; elsewhere it is refused (log 13). -/
theorem hostPoke_plain {s : State} {p : Word} (h : Plain s p) (v : Byte) : hostPoke p v s = .next (memWrite p v s) := by
  rw [memWrite_plain h, hostPoke, h]

theorem hostPoke_register {s : State} {p : Word} (h : ¬Plain s p) (v : Byte) :
    hostPoke p v s = .refused (.pokeOfPeripheral p) := by
  obtain ⟨r, hr⟩ := Option.ne_none_iff_exists'.mp h
  rw [hostPoke, hr]

theorem settle_hostPoke_inv {s : State} (h : MachineInv s) (p : Word) (v : Byte) :
    MachineInv (settle s (hostPoke p v s)).2 := by
  by_cases hp : Plain s p
  · rw [hostPoke_plain hp]
    exact memWrite_inv h p v
  · rw [hostPoke_register hp]
    exact h

theorem settle_step_inv {s : State} (h : MachineInv s) : MachineInv (settle s (step s)).2 := by
  cases hstep : step s with
  | next t => exact invariantKeptByEveryStep s t h hstep
  | fault r => exact step_fault_inv h hstep
  | refused r => exact h

theorem deliver_inv {s : State} (h : MachineInv s) (e : Event) : MachineInv (deliver e s).2 := by
  cases e with
  | step => exact settle_step_inv h
  | reset => exact resetEvent_inv h
  | push b => exact hostPush_inv h b
  | pull => exact hostPull_inv h
  | overrun => exact hostOverrun_inv h
  | poke p v => exact settle_hostPoke_inv h p v

/-- Settles O30: a fault sets `halted` after accesses alone, and what each event keeps a list of them keeps. -/
theorem invariantKeptByEveryEvent : Obligations.InvariantKeptByEveryEvent :=
  ⟨fun _ _ => step_fault_inv, fun _ _ h => deliverAll_keeps h fun _ ht e _ => deliver_inv ht e⟩

/-- Settles O28: the array lists nothing, no flag but TDRE is set, and nothing is pending. -/
theorem invariantHoldsAtReset : Obligations.InvariantHoldsAtReset :=
  ⟨⟨reset_memory_wf, fun a _ => Memory.read_nil a.toNat⟩, rfl, nofun, nofun, rfl⟩

end Sys2Proof.Machine
end

section
/-! PROOF. One step that fetches (40_execution_step.md): the bytes of one instruction, the instruction they decode to, its
meaning, its cost; and the two faults. -/
namespace Sys2Proof.Machine

/-! ### Fetching (R92) -/

theorem fetchBytes_length (n : Nat) (s : State) : (fetchBytes n s).1.length = n := by
  induction n generalizing s with
  | zero => rfl
  | succ n ih => rw [fetchBytes_succ, List.length_cons, ih]

@[simp] theorem fetchBytes_cfg (n : Nat) (s : State) : (fetchBytes n s).2.cfg = s.cfg :=
  (fetchBytes_accesses (l := []) s n .start).cfg

/-- The address `k + 1` after PC is `k` after the next PC. -/
theorem add_ofNat_succ (p : Word) (k : Nat) : p + BitVec.ofNat 16 (k + 1) = p + 1 + BitVec.ofNat 16 k := by
  rw [BitVec.add_assoc, Nat.add_comm k, BitVec.ofNat_add]
  rfl

/-- Settles O7: byte by byte, each fetch leaving the array and the parameters for the next one. -/
theorem fetchFromPlainBytes : Obligations.FetchFromPlainBytes := by
  intro n
  induction n with
  | zero =>
    intro s _
    rw [fetchBytes_zero, BitVec.add_zero]
    rfl
  | succ n ih =>
    intro s hplain
    have hfirst : Plain s s.pc := by simpa using hplain 0 n.succ_pos
    have hrest : ∀ k < n, Plain { s with pc := s.pc + 1 } (s.pc + 1 + BitVec.ofNat 16 k) := fun k hk => by
      rw [← add_ofNat_succ]
      exact hplain (k + 1) (Nat.succ_lt_succ hk)
    rw [fetchBytes_succ, fetch8_plain hfirst, ih _ hrest, List.range_succ_eq_map, List.map_cons, List.map_map]
    simp only [Function.comp_def, Nat.succ_eq_add_one, add_ofNat_succ]
    rw [BitVec.add_zero]

/-! ### The step that fetches (R122) -/

theorem step_fetches {s : State} (h : Fetches s) : step s = fetchExecute s := by
  obtain ⟨hrunning, hwait, hnone, hstrict⟩ := h
  have hcheck : ¬(s.cfg.strict && !pcOk s.cfg s.pc) = true := by
    rw [Bool.and_eq_true, Bool.not_eq_true']
    exact fun ⟨hs, hbad⟩ => Bool.false_ne_true (hbad.symm.trans (hstrict hs))
  rw [step_run hrunning hwait, runningStep, hnone, checkedFetch, if_neg hcheck]

/-- What `decode` and the fetch of the operand bytes make of the same bytes is the same instruction. -/
theorem step_runs_decoded {s : State} {n : Nat} {op : Byte} {ops : List Byte} {i : Instr} (h : Fetches s)
    (hbytes : (fetchBytes n s).1 = op :: ops) (hdecode : decode (op :: ops) = .ok (i, [])) :
    op = s.peek s.pc ∧ step s = charge (opCost s.cfg op) (exec i (fetchBytes n s).2) := by
  obtain ⟨op', ops', hsplit, hcount, rfl, -⟩ := decode_ok_cases hdecode
  rw [List.append_nil] at hsplit
  obtain ⟨rfl, rfl⟩ := List.cons_eq_cons.mp hsplit
  have hn : n = operandCount op + 1 := by
    rw [← hcount, ← List.length_cons (a := op), ← hbytes, fetchBytes_length]
  subst hn
  rw [fetchBytes_succ] at hbytes
  obtain ⟨rfl, rfl⟩ := List.cons_eq_cons.mp hbytes
  rw [step_fetches h, fetchExecute_eq, fetchOperands_eq]
  exact ⟨rfl, rfl⟩

/-- Settles O6: the bytes fetched are the opcode at PC and as many operand bytes as it has. -/
theorem stepRunsTheDecodedInstruction : Obligations.StepRunsTheDecodedInstruction :=
  fun _ _ _ _ _ h hbytes hdecode => (step_runs_decoded h hbytes hdecode).2

/-- Settles O18: only the advance at the end counts cycles, and only a store to the counter writes it before that. -/
theorem cyclesAndCounterGrowByTheCost : Obligations.CyclesAndCounterGrowByTheCost := by
  intro s t n op ops i h hbytes hdecode hstep
  obtain ⟨-, hrun⟩ := step_runs_decoded h hbytes hdecode
  obtain ⟨-, ⟨-, -, hfetchCycles, -, -⟩, -⟩ := fetchBytes_frame n s
  have hfetchFrc : (fetchBytes n s).2.frc = s.frc := (fetchBytes_accesses s n .start).frc_of_nil
  rw [hstep] at hrun
  cases hexec : exec i (fetchBytes n s).2 with
  | next u =>
    rw [hexec] at hrun
    injection hrun with hrun
    obtain ⟨-, -, hcycles, -⟩ := exec_next_frame hexec
    obtain ⟨-, hfrc, -⟩ := (exec_accesses hexec).outside
    rw [fetchBytes_cfg] at hfrc
    subst hrun
    refine ⟨?cycles, ⟨u, rfl, State.advance_frc ..⟩, fun hmisses => ?counter⟩
    case cycles => rw [State.advance_cycles, hcycles, hfetchCycles]
    case counter => rw [State.advance_frc, hfrc hmisses, hfetchFrc]
  | fault r => rw [hexec] at hrun; cases hrun
  | refused r => rw [hexec] at hrun; cases hrun

/-! ### What no step changes (R54, R38, R6) -/

theorem Awake.frame {s s' : State} (h : Awake s s') :
    s.halted = false ∧ s'.halted = s.halted ∧ s'.rdr = s.rdr ∧ s'.cfg = s.cfg := by
  obtain ⟨hrunning, ⟨-, rfl⟩ | ⟨-, -, rfl⟩⟩ := h <;> exact ⟨hrunning, rfl, rfl, rfl⟩

theorem fetchBytes_keeps (n : Nat) (s : State) :
    (fetchBytes n s).2.halted = s.halted ∧ (fetchBytes n s).2.rdr = s.rdr ∧ (fetchBytes n s).2.cfg = s.cfg := by
  obtain ⟨-, ⟨-, hhalted, -⟩, -⟩ := fetchBytes_frame n s
  exact ⟨hhalted, (fetchBytes_accesses (l := []) s n .start).rdr, fetchBytes_cfg n s⟩

theorem step_next_keeps {s t : State} (h : step s = .next t) : t.halted = s.halted ∧ t.rdr = s.rdr ∧ t.cfg = s.cfg := by
  obtain ⟨-, rfl⟩ | ⟨-, -, rfl⟩ | ⟨v, -, -, -, rfl⟩ | ⟨v, s', hawake, -, rfl⟩ | ⟨s', u, hawake, -, hexec, rfl⟩ :=
    step_next_cases h
  · exact ⟨rfl, rfl, rfl⟩
  · exact ⟨rfl, rfl, rfl⟩
  · simp [wakeFromWai]
  · obtain ⟨-, hkeeps⟩ := hawake.frame
    simpa [interruptEntry] using hkeeps
  · obtain ⟨-, hhalted, hrdr, hcfg⟩ := hawake.frame
    obtain ⟨hhalted', hrdr', hcfg'⟩ := fetchBytes_keeps (operandCount (s'.peek s'.pc) + 1) s'
    obtain ⟨hhalted'', hrdr'', -, hcfg'', -⟩ := exec_next_frame hexec
    exact ⟨hhalted''.trans (hhalted'.trans hhalted), hrdr''.trans (hrdr'.trans hrdr), hcfg''.trans (hcfg'.trans hcfg)⟩

theorem step_fault_keeps {s : State} {r : Fault} (h : step s = .fault r) :
    s.halted = false ∧ r.after.halted = true ∧ r.after.rdr = s.rdr ∧ r.after.cfg = s.cfg := by
  obtain ⟨s', hawake, hfault⟩ := step_fault_cases h
  obtain ⟨hrunning, -, hrdr, hcfg⟩ := hawake.frame
  obtain rfl | hexec := hfault
  · exact ⟨hrunning, rfl, hrdr, hcfg⟩
  · obtain ⟨-, hrdr', hcfg'⟩ := fetchBytes_keeps (operandCount (s'.peek s'.pc) + 1) s'
    obtain ⟨op, -, rfl⟩ := exec_fault_cases hexec
    exact ⟨hrunning, rfl, hrdr'.trans hrdr, hcfg'.trans hcfg⟩

/-- Settles O31: no part of a step writes RDR or the parameters, and of all of them a fault alone writes `halted`. -/
theorem stepsKeepHaltedRdrAndParameters : Obligations.StepsKeepHaltedRdrAndParameters := fun _ =>
  ⟨fun _ => step_next_keeps, fun _ => step_fault_keeps⟩

/-! ### The fault of strict mode (R124) -/

theorem checkedFetch_invalid {s : State} (hstrict : s.cfg.strict = true) (hpc : pcOk s.cfg s.pc = false) :
    checkedFetch s = .fault (.invalidPC s.pc { s with halted := true }) := by
  rw [checkedFetch, hstrict, hpc]
  rfl

theorem step_of_awake {s s' : State} (h : Awake s s') : step s = runningStep s' := by
  obtain ⟨hrunning, ⟨hwait, rfl⟩ | ⟨hwait, hpending, rfl⟩⟩ := h
  · exact step_run hrunning hwait
  · exact step_sleep_wake hrunning hwait hpending

/-- Running an instruction never ends in the fault of strict mode. -/
theorem fetchExecute_ne_invalidPC (s u : State) (p : Word) : fetchExecute s ≠ .fault (.invalidPC p u) := by
  intro h
  rw [fetchExecute_eq] at h
  cases hexec : exec (fetchOperands (s.peek s.pc) (fetch8 s).2).1 (fetchBytes (operandCount (s.peek s.pc) + 1) s).2 with
  | next t => rw [hexec] at h; cases h
  | fault r =>
    obtain ⟨op, -, rfl⟩ := exec_fault_cases hexec
    rw [hexec] at h
    cases h
  | refused r => rw [hexec] at h; cases h

theorem runningStep_invalidPC {s u : State} {p : Word} (h : runningStep s = .fault (.invalidPC p u)) :
    s.recognized = none ∧ s.cfg.strict = true ∧ pcOk s.cfg s.pc = false ∧ p = s.pc ∧
      u = { s with halted := true } := by
  unfold runningStep checkedFetch at h
  split at h
  next => cases h
  next hnone =>
    split at h
    next hcheck =>
      rw [Bool.and_eq_true, Bool.not_eq_true'] at hcheck
      obtain ⟨hstrict, hpc⟩ := hcheck
      cases h
      exact ⟨hnone, hstrict, hpc, rfl, rfl⟩
    next => exact absurd h (fetchExecute_ne_invalidPC s u p)

/-- R414: nothing is recognized when I is set or no source is pending. -/
theorem recognized_eq_none_iff (s : State) : s.recognized = none ↔ s.ccr.i = true ∨ s.pending = none := by
  rw [State.recognized]
  split <;> simp [*]

/-- Settles O9: the check stands between the recognition of interrupts and the fetch. A sleeping machine that wakes to it
differs in `wait` alone. -/
theorem strictModeFaultsAtInvalidPc : Obligations.StrictModeFaultsAtInvalidPc := by
  refine ⟨?faults, ?only⟩
  case faults =>
    intro s hrunning hwait hnone hstrict hpc
    rw [step_run hrunning hwait, runningStep, hnone, ← checkedFetch_invalid hstrict hpc]
  case only =>
    intro s u p h
    obtain ⟨s', hawake, -⟩ := step_fault_cases h
    rw [step_of_awake hawake] at h
    obtain ⟨hnone, hstrict, hpc, rfl, rfl⟩ := runningStep_invalidPC h
    rw [recognized_eq_none_iff] at hnone
    obtain ⟨-, ⟨-, rfl⟩ | ⟨-, -, rfl⟩⟩ := hawake
    · exact ⟨hstrict, hpc, rfl, hnone, rfl, rfl, SameRegisters.refl _, SamePeripherals.refl _, SameMemory.refl _⟩
    · exact ⟨hstrict, hpc, rfl, hnone, rfl, rfl, SameRegisters.refl _, SamePeripherals.refl _, SameMemory.refl _⟩

/-! ### The fault of an undefined opcode (R112, R402) -/

/-- Settles O11: the one meaning that stops is that of the undefined opcodes. -/
theorem everyDefinedInstructionCompletes : Obligations.EveryDefinedInstructionCompletes := by
  intro i s h
  cases i
  case illegal op => exact absurd rfl (h op)
  all_goals exact ⟨_, rfl⟩

/-- Settles O10: the one byte fetched decodes to the undefined instruction, whose fault is charged nothing. -/
theorem illegalOpcodeFaults : Obligations.IllegalOpcodeFaults := by
  refine ⟨fun op s => rfl, fun s h hop => ?_⟩
  obtain ⟨-, hstep⟩ := step_runs_decoded (n := 1) h rfl (decodesTo_illegal hop [])
  rw [hstep]
  change Host.Outcome.fault (Fault.illegalOpcode (s.peek s.pc) ((s.touch s.pc).pc + 1 - 1)
    { s.touch s.pc with pc := (s.touch s.pc).pc + 1, halted := true }) = _
  rw [State.touch_pc, BitVec.add_sub_cancel]

end Sys2Proof.Machine
end

section
/-! PROOF. Interrupts and wait states (60_exceptions.md, 40_execution_step.md): the entry as a whole step, what it leaves
alone, the return that undoes it, and the machine that waits or sleeps. -/
namespace Sys2Proof.Machine

open Sys2Proof.Claims

/-! ### Which interrupt a step recognizes (R414) -/

theorem recognized_unmasked {s : State} (h : s.ccr.i = false) : s.recognized = s.pending := by
  rw [State.recognized, h]
  rfl

theorem recognized_masked {s : State} (h : s.ccr.i = true) : s.recognized = none := if_pos h

/-! ### The entry (R421, R130) -/

theorem checkedFetch_eq (s : State) : checkedFetch s =
    if s.cfg.strict = true ∧ pcOk s.cfg s.pc = false then .fault (.invalidPC s.pc { s with halted := true })
    else fetchExecute s := by
  simp only [checkedFetch, Bool.and_eq_true, Bool.not_eq_true']

/-- Settles O13: unmasked, the pending source is recognized and its entry is the step; masked, none is. -/
theorem interruptIsTakenExactlyWhenUnmasked : Obligations.InterruptIsTakenExactlyWhenUnmasked := by
  refine ⟨?taken, ?masked⟩
  case taken =>
    intro s v hrunning hwait hmask hpending
    obtain ⟨-, hengine, -⟩ := takeException_eq v s
    refine ⟨takeException v s, ?_, takeException_enters v s, hengine⟩
    rw [step_run hrunning hwait, runningStep, recognized_unmasked hmask, hpending]
    rfl
  case masked =>
    intro s hrunning hwait hmask
    rw [step_run hrunning hwait, runningStep, recognized_masked hmask, ← checkedFetch_eq]

/-- Settles O14: the nine accesses of an entry are all of plain bytes. -/
theorem entryClearsNoFlag : Obligations.EntryClearsNoFlag := by
  intro v s hstack hhi hlo
  obtain ⟨-, -, -, hper⟩ := takeException_eq v s
  have hhi' : Plain (writeAll (stackImage s) s) v := by rwa [Plain, writeAll_cfg]
  have hlo' : Plain (writeAll (stackImage s) s) (v + 1) := by rwa [Plain, writeAll_cfg]
  rw [memRead16_eq, State.touch_plain hhi', State.touch_plain hlo'] at hper
  exact (writeAll_samePeripherals _ s hstack).trans hper

/-! ### The return from an entry (R424) -/

theorem readAll_plain {l : List Word} {s : State} (h : ∀ a ∈ l, Plain s a) :
    readAll l s = (l.map fun a => s.mem.read a.toNat, s) := by
  induction l with
  | nil => rfl
  | cons a l ih =>
    obtain ⟨ha, hl⟩ := List.forall_mem_cons.mp h
    rw [readAll, State.touch_plain ha, State.peek_plain ha, ih hl, List.map_cons]

/-- The seven addresses RTI pulls from are those an entry has stacked at, last first. -/
theorem pull_addresses_eq (s : State) : (List.range 7).map (fun k => s.sp - 7 + 1 + BitVec.ofNat 16 k) =
    ((stackImage s).map Prod.fst).reverse := by
  simp only [List.range_succ, List.range_zero, stackImage, List.map_cons, List.map_nil,
    List.reverse_cons, List.reverse_nil, List.nil_append, List.cons_append, List.cons.injEq, and_true]
  refine ⟨?_, ?_, ?_, ?_, ?_, ?_, ?_⟩ <;> bv_omega

/-- Settles O15: the seven reads find the seven bytes stacked, the last one first. -/
theorem rtiRestoresTheRegisterFile : Obligations.RtiRestoresTheRegisterFile := by
  intro v s u hwf hstack hcfg hsp hbytes
  obtain ⟨-, -, hentry, -⟩ := takeException_eq v s
  obtain ⟨c, b, a, xh, xl, ph, pl, hread, hregs, hper⟩ := returnFromException_spec u
  have hplain : ∀ p ∈ ((stackImage s).map Prod.fst).reverse, Plain u p := by
    intro p hp
    obtain ⟨q, hq, rfl⟩ := List.mem_map.mp (List.mem_reverse.mp hp)
    rw [Plain, hcfg]
    exact hstack q hq
  have hvalues : ((stackImage s).map Prod.fst).reverse.map (fun p => u.mem.read p.toNat) =
      ((stackImage s).map Prod.snd).reverse := by
    rw [List.map_reverse, List.map_map]
    refine congrArg List.reverse (List.map_congr_left fun p hp => ?_)
    calc u.mem.read p.1.toNat = (takeException v s).mem.read p.1.toNat := hbytes p hp
      _ = (writeAll (stackImage s) s).mem.read p.1.toNat := by rw [hentry]
      _ = p.2 := writeAll_read hwf (stackImage_nodup s) hp (hstack p hp)
  rw [hsp, takeException_sp, pull_addresses_eq, readAll_plain hplain] at hread hper
  obtain ⟨rfl, rfl, rfl, rfl, rfl, rfl, rfl⟩ : s.ccr.toByte = c ∧ s.b = b ∧ s.a = a ∧ hi s.x = xh ∧ lo s.x = xl ∧
      hi s.pc = ph ∧ lo s.pc = pl := by
    simpa [stackImage] using hvalues.symm.trans hread
  obtain ⟨-, hmem, hper⟩ := hper
  refine ⟨returnFromException u, rfl, ?_, fun k => by rw [hmem], returnFromException_sameEngine u, hper⟩
  simpa [SameRegisters, hsp] using hregs

/-! ### Wait states (R126, R127) -/

/-- Writing the wait state changes neither what the vector reads nor the side effects of that read. -/
theorem vectorTo_wakes (v : Word) (s : State) :
    SameRegisters { s with pc := vectorValue v s, ccr := { s.ccr with i := true } }
        (vectorTo v { s with wait := .run }) ∧
      SamePeripherals ((s.touch v).touch (v + 1)) (vectorTo v { s with wait := .run }) := by
  obtain ⟨hvalue, hreads⟩ := memRead16_congr (s := s) (t := { s with wait := .run }) v rfl rfl (SamePeripherals.refl s)
  obtain ⟨hregs, -, -, hper⟩ := vectorTo_eq v { s with wait := .run }
  rw [hvalue] at hregs
  exact ⟨hregs, SamePeripherals.trans hreads hper⟩

/-- Settles O16: each case is the branch of the step that its state takes. -/
theorem waitStatesWake : Obligations.WaitStatesWake := by
  refine ⟨?wakes, ?idles, fun s hrunning hwait => ⟨step_sleep_idle hrunning hwait, fun hpending => ?sleeper⟩⟩
  case wakes =>
    intro s v hrunning hwait hmask hpending
    obtain ⟨hregs, hper⟩ := vectorTo_wakes v s
    refine ⟨vectorTo v { s with wait := .run }, ?_, hregs, fun k => by rw [vectorTo_mem], by simp [SameEngine], hper⟩
    rw [step_wai hrunning hwait, recognized_unmasked hmask, hpending]
    rfl
  case idles =>
    intro s hrunning hwait hnone
    rw [step_wai hrunning hwait, (recognized_eq_none_iff s).mpr hnone, idleTick]
  case sleeper =>
    rw [step_sleep_wake hrunning hwait hpending]
    exact (step_run (s := { s with wait := .run }) hrunning rfl).symm

/-! ### WAI with I set (R126, U10) -/

theorem step_stuckInWai {s : State} (h : StuckInWai s) : step s = .next (s.advance s.cfg.idleCost) := by
  obtain ⟨hrunning, hwait, hmask⟩ := h
  rw [step_wai hrunning hwait, recognized_masked hmask, idleTick]

/-- An advance writes only the two counters and the timer flags. -/
theorem advance_stuckInWai {s : State} (h : StuckInWai s) (n : Nat) : StuckInWai (s.advance n) := h

/-- Settles O17: each step is an idle tick, after which the machine is stuck as before. -/
theorem waiWithMaskSetIdlesForEver : Obligations.WaiWithMaskSetIdlesForEver := by
  intro n
  induction n with
  | zero => exact fun s h => ⟨s, rfl, h, SameRegisters.refl s, rfl, by simp, by simp⟩
  | succ n ih =>
    intro s h
    obtain ⟨t, hsteps, hstuck, hregs, hmem, hcycles, hfrc⟩ := ih _ (advance_stuckInWai h s.cfg.idleCost)
    refine ⟨t, (stepAll_succ (step_stuckInWai h) n).trans hsteps, hstuck, hregs, hmem, ?cycles, ?counter⟩
    case cycles =>
      rw [hcycles, State.advance_cycles, State.advance_cfg, Nat.succ_mul, Nat.add_comm (n * _), Nat.add_assoc]
    case counter =>
      rw [hfrc, State.advance_frc, State.advance_cfg, Nat.succ_mul, Nat.add_comm (n * _), BitVec.ofNat_add,
        BitVec.add_assoc]

end Sys2Proof.Machine
end

section
/-! PROOF. Memory and the timer as a program sees them (20_memory.md, 60_exceptions.md section 5): what a byte and a word
written read as, the accesses that clear the timer flags, the advance that sets them; and the host's events
(20_memory.md section 7). -/
namespace Sys2Proof.Machine

open Sys2Proof.Claims

/-! ### Effective addresses (R94, R95) -/

theorem zext16_toNat (v : Byte) : (zext16 v).toNat = v.toNat := BitVec.toNat_setWidth_of_le (by decide)

/-- Settles O34: zero extension keeps the number, and the index sum is that of the numbers. -/
theorem effectiveAddresses : Obligations.EffectiveAddresses := by
  intro s b w
  refine ⟨zext16_toNat b, ?indexed, rfl⟩
  case indexed =>
    rw [State.ea, add_zext16_eq]
    exact BitVec.toNat_ofNat ..

/-! ### Plain bytes (R61, R64) -/

theorem memWrite_peek_plain {s : State} {p : Word} (hw : s.mem.wf = true) (h : Plain s p) (v : Byte) (a : Word) :
    (memWrite p v s).peek a = if a = p then v else s.peek a := by
  split
  case isTrue heq =>
    subst heq
    rw [State.peek_plain (by rwa [Plain, memWrite_cfg]), memWrite_read_self hw h]
  case isFalse hne =>
    exact State.peek_congr (memWrite_cfg ..) (memWrite_samePeripherals h v)
      (memWrite_read_ne p v s fun _ => mt BitVec.eq_of_toNat_eq hne)

/-- Settles O21: the array alone is written, and every other byte of it reads as before. -/
theorem plainWriteThenRead : Obligations.PlainWriteThenRead := fun s p a v hw h =>
  ⟨memWrite_peek_plain hw h v a, by rw [memWrite_plain h], memWrite_wf hw p v⟩

/-- Settles O24: the low byte is written second, at an address that is not the first one's, wrap or not. -/
theorem wordWriteThenRead : Obligations.WordWriteThenRead := by
  intro s p v hw hfirst hsecond
  have hsecond' : Plain (memWrite p (hi v) s) (p + 1) := by rwa [Plain, memWrite_cfg]
  have hw' : (memWrite p (hi v) s).mem.wf = true := memWrite_wf hw p (hi v)
  have hhigh : (memWrite16 p v s).peek p = hi v := by
    rw [memWrite16, memWrite_peek_plain hw' hsecond', if_neg (add_one_ne p), memWrite_peek_plain hw hfirst, if_pos rfl]
  have hlow : (memWrite16 p v s).peek (p + 1) = lo v := by
    rw [memWrite16, memWrite_peek_plain hw' hsecond', if_pos rfl]
  have hcfg : (memWrite16 p v s).cfg = s.cfg := by rw [memWrite16, memWrite_cfg, memWrite_cfg]
  have hfirst' : Plain (memWrite16 p v s) p := by rwa [Plain, hcfg]
  have hsecond'' : Plain (memWrite16 p v s) (p + 1) := by rwa [Plain, hcfg]
  refine ⟨?word, by rw [← State.peek_plain hfirst', hhigh], by rw [← State.peek_plain hsecond'', hlow]⟩
  case word => rw [memRead16_eq, State.touch_plain hfirst', hhigh, hlow, cat_hi_lo]

/-! ### The timer flags cleared (R433, R434) -/

theorem armLatches_ocArmed {s : State} (h : s.ocf = true) : s.armLatches.ocArmed = true := by
  rw [State.armLatches, h, Bool.or_true]

theorem armLatches_tofArmed {s : State} (h : s.tof = true) : s.armLatches.tofArmed = true := by
  rw [State.armLatches, h, Bool.or_true]

theorem clearOcf_of_armed {s : State} (h : s.ocArmed = true) : s.clearOcf.ocf = false ∧ s.clearOcf.ocArmed = false := by
  rw [State.clearOcf, if_pos h]
  exact ⟨(mask_flags s.tcsr).2.1.2.1, rfl⟩

theorem clearTof_of_armed {s : State} (h : s.tofArmed = true) : s.clearTof.tof = false ∧ s.clearTof.tofArmed = false := by
  rw [State.clearTof, if_pos h]
  exact ⟨(mask_flags s.tcsr).1.2.2, rfl⟩

theorem clearOcf_tcsr_of_unarmed {s : State} (h : s.ocArmed = false) : s.clearOcf.tcsr = s.tcsr := by
  rw [State.clearOcf, h]
  rfl

theorem clearTof_of_unarmed {s : State} (h : s.tofArmed = false) : s.clearTof = s := by
  rw [State.clearTof, h]
  cases s
  subst h
  rfl

/-- A write of either compare byte: some new compare value, and the second access of the clearing of OCF. -/
theorem memWrite_at_ocr {s : State} {q : Word} (h : regAt s.cfg q = some .ocrHi ∨ regAt s.cfg q = some .ocrLo)
    (v : Byte) : ∃ w, memWrite q v s = ({ s with ocr := w } : State).clearOcf := by
  rcases h with h | h
  · exact ⟨_, memWrite_at_ocrHi h v⟩
  · exact ⟨_, memWrite_at_ocrLo h v⟩

theorem memWrite_at_ocr_peek {s : State} {q : Word} (h : regAt s.cfg q = some .ocrHi ∨ regAt s.cfg q = some .ocrLo)
    (v : Byte) : (memWrite q v s).peek q = v := by
  rcases h with h | h
  · rw [memWrite_at_ocrHi h, State.peek, State.clearOcf_cfg, h]
    exact hi_cat ..
  · rw [memWrite_at_ocrLo h, State.peek, State.clearOcf_cfg, h]
    exact lo_cat ..

theorem State.peek_frcHi {s : State} {r : Word} (h : regAt s.cfg r = some .frcHi) : s.peek r = hi s.frc := by
  rw [State.peek, h]

/-- Settles O23: the read of TCSR arms the latch of a flag that is set, and the second access clears what is armed. -/
theorem timerFlagsAreClearedInTwoAccesses : Obligations.TimerFlagsAreClearedInTwoAccesses := by
  intro s p q r v hp hq hr
  have hr' : regAt s.armLatches.cfg r = some .frcHi := hr
  have hclear : (s.touch p).touch r = s.armLatches.clearTof := by
    rw [State.touch_tcsr hp, State.touch_frcHi hr']
  refine ⟨fun hocf => ?_, fun hunarmed => ?_, memWrite_at_ocr_peek hq v, fun htof => ?_, fun hunarmed => ?_, ?_, ?_⟩
  · rw [State.touch_tcsr hp]
    obtain ⟨w, hw⟩ := memWrite_at_ocr (s := s.armLatches) hq v
    rw [hw]
    exact clearOcf_of_armed (armLatches_ocArmed hocf)
  · obtain ⟨w, hw⟩ := memWrite_at_ocr hq v
    rw [hw]
    exact clearOcf_tcsr_of_unarmed hunarmed
  · rw [hclear]
    exact clearTof_of_armed (armLatches_tofArmed htof)
  · rw [State.touch_frcHi hr, clearTof_of_unarmed hunarmed]
  · rw [State.touch_tcsr hp, State.peek_frcHi hr', State.armLatches_frc]
  · rw [State.touch_tcsr hp, State.armLatches_tcsr]

/-! ### The timer flags set (R430 to R432) -/

/-- An advance of `n` goes through the compare value exactly if that is one of the next `n` values of the counter. -/
theorem compareHit_iff (ocr old : Word) (n : Nat) :
    compareHit ocr old n = true ↔ ∃ k, 1 ≤ k ∧ k ≤ n ∧ ocr = old + BitVec.ofNat 16 k := by
  have hocr := ocr.isLt
  have hold := old.isLt
  have hdist : (ocr - old - 1).toNat = (ocr.toNat + 65536 - old.toNat + 65535) % 65536 := by bv_omega
  have heq (k : Nat) : ocr = old + BitVec.ofNat 16 k ↔ ocr.toNat = (old.toNat + k) % 65536 := by
    rw [← BitVec.toNat_inj, BitVec.toNat_add, BitVec.toNat_ofNat, Nat.add_mod_mod]
  simp only [compareHit, decide_eq_true_iff, hdist, heq]
  constructor
  · rintro ⟨-, hlt⟩
    exact ⟨(ocr.toNat + 65536 - old.toNat + 65535) % 65536 + 1, by omega, hlt, by omega⟩
  · rintro ⟨k, hone, hn, hk⟩
    exact ⟨by omega, by omega⟩

/-- The two flags an advance may set, and the bits beside them. -/
theorem advance_bits : ∀ (v : Byte) (b c : Bool),
    (v ||| (if b then 0x40#8 else 0#8) ||| (if c then 0x20#8 else 0#8))[6] = (v[6] || b) ∧
      (v ||| (if b then 0x40#8 else 0#8) ||| (if c then 0x20#8 else 0#8))[5] = (v[5] || c) ∧
      (v ||| (if b then 0x40#8 else 0#8) ||| (if c then 0x20#8 else 0#8)) &&& 0x9F = v &&& 0x9F := by
  decide

/-- Settles O25: OCF by `compareHit`, TOF by `overflowHit`, and the counter as a sum of words. -/
theorem compareMatchWhenTheCounterPasses : Obligations.CompareMatchWhenTheCounterPasses := by
  intro s n
  obtain ⟨hocf, htof, hrest⟩ := advance_bits s.tcsr (compareHit s.ocr s.frc n) (overflowHit s.frc n)
  refine ⟨?compare, ?overflow, hrest, ?frame⟩
  case compare =>
    change (timerAdvance n s).tcsr[6] = true ↔ s.tcsr[6] = true ∨ _
    rw [← compareHit_iff, ← Bool.or_eq_true, ← hocf]
    rfl
  case overflow =>
    change (timerAdvance n s).tcsr[5] = true ↔ s.tcsr[5] = true ∨ _
    rw [← decide_eq_true_iff (p := 65536 ≤ _), ← Bool.or_eq_true]
    exact Bool.eq_iff_iff.mp htof
  case frame =>
    have hfrc : (timerAdvance n s).frc = s.frc + BitVec.ofNat 16 n := State.advance_frc s n
    rw [← hfrc]
    rfl

/-! ### The host's events (R76, R78) -/

theorem deliver_poke_plain {s : State} {a : Word} (h : Plain s a) (v : Byte) :
    deliver (.poke a v) s = (.done, memWrite a v s) := by
  rw [deliver, hostPoke_plain h, settle]

theorem deliver_poke_register {s : State} {a : Word} (h : ¬Plain s a) (v : Byte) :
    deliver (.poke a v) s = (.refused (.pokeOfPeripheral a), s) := by
  rw [deliver, hostPoke_register h, settle]

theorem hostPush_sameRegisters (b : Byte) (s : State) : SameRegisters s (hostPush b s).2 := by
  cases h : s.rdrf with
  | true => rw [hostPush_full b h]; exact SameRegisters.refl s
  | false => rw [hostPush_empty b h]; exact SameRegisters.refl s

theorem hostPull_sameRegisters (s : State) : SameRegisters s (hostPull s).2 := by
  cases h : s.txPending with
  | true => rw [hostPull_pending h]; exact SameRegisters.refl s
  | false => rw [hostPull_idle h]; exact SameRegisters.refl s

theorem deliver_poke_sameRegisters (a : Word) (v : Byte) (s : State) :
    SameRegisters s (deliver (.poke a v) s).2 := by
  by_cases h : Plain s a
  · rw [deliver_poke_plain h]
    simp [SameRegisters]
  · rw [deliver_poke_register h]
    exact SameRegisters.refl s

/-- Settles O27: a poke of a plain byte is a write of it; each other event's effect on the registers by the event. -/
theorem hostEventsLeaveTheRegisterFile : Obligations.HostEventsLeaveTheRegisterFile := by
  refine ⟨fun s a v => ⟨fun hplain => ?poke, fun h => deliver_poke_register h v⟩, fun e s hstep => ?events⟩
  case poke =>
    rw [deliver_poke_plain hplain]
    exact ⟨by rw [memWrite_plain hplain], fun k hk => memWrite_read_ne a v s fun _ => hk,
      fun hw => memWrite_read_self hw hplain v⟩
  case events =>
    refine ⟨fun hreset => ?_, ?_⟩
    · cases e with
      | step => exact (hstep rfl).elim
      | reset => exact (hreset rfl).elim
      | push b => exact hostPush_sameRegisters b s
      | pull => exact hostPull_sameRegisters s
      | overrun => exact SameRegisters.refl s
      | poke a v => exact deliver_poke_sameRegisters a v s
    · rintro rfl
      exact resetEvent_sameRegisters s

/-! ### Decimal addition (R194, R209) -/

/-- R209 adds 6 exactly when the sum of the low digits is no digit. -/
theorem low_digit_carries {a b : Nat} (ha : a % 16 ≤ 9) (hb : b % 16 ≤ 9) :
    (9 < (a + b) % 256 % 16 ∨ 16 ≤ a % 16 + b % 16) ↔ 10 ≤ a % 16 + b % 16 := by
  omega

/-- R209 adds 0x60 exactly when the sum of the high digits, with the carry of the low ones, is no digit. -/
theorem high_digit_carries {a b : Nat} (ha : a % 16 ≤ 9 ∧ a / 16 ≤ 9) (hb : b % 16 ≤ 9 ∧ b / 16 ≤ 9) :
    (9 < (a + b) % 256 / 16 ∨ 256 ≤ a + b ∨ (8 < (a + b) % 256 / 16 ∧ 9 < (a + b) % 256 % 16)) ↔
      10 ≤ a / 16 + b / 16 + (a % 16 + b % 16) / 10 := by
  omega

/-- A correction made when there is a decimal carry, as a multiple of that carry. -/
theorem correction_eq_mul {x : Nat} (hx : x < 20) (m : Nat) : (if 10 ≤ x then m else 0) = m * (x / 10) := by
  split
  case isTrue h => rw [show x / 10 = 1 by omega, Nat.mul_one]
  case isFalse h => rw [show x / 10 = 0 by omega, Nat.mul_zero]

/-- With the corrections the binary sum is that of the decimal digits: 6 turns the carry `k` at ten into one at sixteen,
0x60 the carry `h`. -/
theorem corrected_sum_digits {a b d k e h : Nat} (hlow : a % 16 + b % 16 = d + 10 * k) (hd : d ≤ 9)
    (hhigh : a / 16 + b / 16 + k = e + 10 * h) (he : e ≤ 9) :
    ((a + b) % 256 + 6 * k + 96 * h) % 256 = 16 * e + d := by
  have hsum : a + b + (6 * k + 96 * h) = 16 * e + d + 256 * h := by omega
  rw [Nat.add_assoc, Nat.mod_add_mod, hsum, Nat.add_mul_mod_self_left, Nat.mod_eq_of_lt (by omega)]

/-- Two-digit decimal addition with the corrections of R209, on the binary sum and its two carries. -/
theorem decimal_sum_corrected {a b r : Nat} {c : Bool} (ha : a % 16 ≤ 9 ∧ a / 16 ≤ 9) (hb : b % 16 ≤ 9 ∧ b / 16 ≤ 9)
    (hr : r = ((a + b) % 256 + (if 9 < (a + b) % 256 % 16 ∨ 16 ≤ a % 16 + b % 16 then 6 else 0) +
      (if 9 < (a + b) % 256 / 16 ∨ 256 ≤ a + b ∨ (8 < (a + b) % 256 / 16 ∧ 9 < (a + b) % 256 % 16) then 96 else 0)) % 256)
    (hc : c = true ↔ 256 ≤ a + b ∨
      (if 9 < (a + b) % 256 / 16 ∨ 256 ≤ a + b ∨ (8 < (a + b) % 256 / 16 ∧ 9 < (a + b) % 256 % 16) then 96 else 0) = 96) :
    (r % 16 ≤ 9 ∧ r / 16 ≤ 9) ∧
      10 * (r / 16) + r % 16 + 100 * c.toNat = 10 * (a / 16) + a % 16 + (10 * (b / 16) + b % 16) := by
  obtain ⟨k, hk⟩ : ∃ k, k = (a % 16 + b % 16) / 10 := ⟨_, rfl⟩
  obtain ⟨h, hh⟩ : ∃ h, h = (a / 16 + b / 16 + k) / 10 := ⟨_, rfl⟩
  simp only [low_digit_carries ha.1 hb.1, high_digit_carries ha hb, ← hk,
    correction_eq_mul (show a % 16 + b % 16 < 20 by omega), correction_eq_mul (show a / 16 + b / 16 + k < 20 by omega),
    ← hh] at hr hc
  rw [corrected_sum_digits (d := (a % 16 + b % 16) % 10) (e := (a / 16 + b / 16 + k) % 10) (by omega) (by omega)
    (by omega) (by omega)] at hr
  have hcarry : c = true ↔ h = 1 := hc.trans (by omega)
  have hhundred : c.toNat = h := by
    cases c with
    | true => exact (hcarry.mp rfl).symm
    | false =>
      have hne : h ≠ 1 := fun h1 => Bool.false_ne_true (hcarry.mpr h1)
      rw [Bool.toNat_false]
      omega
  omega

/-- Settles O44: ABA leaves the binary sum with its two carries, DAA corrects it by R209. -/
theorem decimalAdditionOfBcdBytes : Obligations.DecimalAdditionOfBcdBytes := by
  intro s ha hb
  obtain ⟨-, -, -, -, haba⟩ := byteAdditions
  obtain ⟨t, hdaa, ⟨hresult, hcarry⟩, -⟩ :=
    decimalAdjust { s with a := s.a + s.b, ccr := addFlags8 s.a s.b 0 s.ccr }
  simp only [addFlags8, decide_eq_true_iff, BitVec.toNat_add, Nat.add_zero] at hresult hcarry
  refine ⟨t, ?run, decimal_sum_corrected ha hb hresult hcarry⟩
  case run => rw [execAll_cons (haba s), execAll_cons hdaa, execAll_nil]

end Sys2Proof.Machine
end

section
/-! PROOF. The instructions that may change the interrupt mask (10_state.md section 1, the row of I; D43): the shapes that
compute flags keep I where their operation does. -/
namespace Sys2Proof.Machine

/-! ### The shapes -/

theorem loadAcc_keeps_i (r : Acc) (src : Src8) (s : State) : (loadAcc r src s).ccr.i = s.ccr.i := by
  rw [loadAcc_ccr, Ccr.move8_keeps_i]

theorem accOp_keeps_i {op : Byte → Byte → Ccr → Alu8} (hop : ∀ a m f, (op a m f).2.i = f.i) (r : Acc) (src : Src8)
    (s : State) : (accOp op r src s).ccr.i = s.ccr.i := by
  rw [accOp_ccr, hop]

theorem accTest_keeps_i {op : Byte → Byte → Ccr → Alu8} (hop : ∀ a m f, (op a m f).2.i = f.i) (r : Acc) (src : Src8)
    (s : State) : (accTest op r src s).ccr.i = s.ccr.i := by
  rw [accTest_ccr, hop]

theorem accUnary_keeps_i {op : Byte → Ccr → Alu8} (hop : ∀ v f, (op v f).2.i = f.i) (r : Acc) (s : State) :
    (accUnary op r s).ccr.i = s.ccr.i := by
  rw [accUnary_ccr, hop]

theorem memUnary_keeps_i {op : Byte → Ccr → Alu8} (hop : ∀ v f, (op v f).2.i = f.i) (m : Mode) (s : State) :
    (memUnary op m s).ccr.i = s.ccr.i := by
  rw [memUnary_ccr, hop]

theorem store8_keeps_i (v : Byte) (m : Mode) (s : State) : (store8 v m s).ccr.i = s.ccr.i := by
  rw [store8_ccr, Ccr.move8_keeps_i]

theorem store16_keeps_i (v : Word) (m : Mode) (s : State) : (store16 v m s).ccr.i = s.ccr.i := by
  rw [store16_ccr, Ccr.move16_keeps_i]

/-- States with the same flags have the same I. -/
theorem keeps_i_of_ccr {s t : State} (h : t.ccr = s.ccr) : t.ccr.i = s.ccr.i := congrArg Ccr.i h

theorem setWait_keeps_i {s t : State} (w : WaitState) (h : t.ccr = s.ccr) :
    ({ t with wait := w } : State).ccr.i = s.ccr.i := congrArg Ccr.i h

/-! ### Every instruction (D43) -/

/-- Settles O32: beside the five writers, each instruction has a shape that keeps I or leaves the flags alone. -/
theorem interruptMaskWriters : Obligations.InterruptMaskWriters := by
  intro i s t h
  cases i
  case illegal => cases h
  case sei => exact .inr (.inl rfl)
  case cli => exact .inr (.inr (.inl rfl))
  case tap => exact .inr (.inr (.inr (.inl rfl)))
  case rti => exact .inr (.inr (.inr (.inr (.inl rfl))))
  case swi => exact .inr (.inr (.inr (.inr (.inr rfl))))
  all_goals
    injection h with h
    subst h
    refine .inl ?_
  case ldaa | ldab => exact loadAcc_keeps_i ..
  case adda | addb | adca | adcb => exact accOp_keeps_i (fun _ _ _ => add8_keeps_i ..) ..
  case suba | subb | sbca | sbcb => exact accOp_keeps_i (fun _ _ _ => sub8_keeps_i ..) ..
  case anda | andb | oraa | orab | eora | eorb => exact accOp_keeps_i (logic8_keeps_i _) ..
  case cmpa | cmpb => exact accTest_keeps_i (fun _ _ _ => sub8_keeps_i ..) ..
  case bita | bitb => exact accTest_keeps_i (logic8_keeps_i _) ..
  case nega | negb => exact accUnary_keeps_i neg8_keeps_i ..
  case inca | incb => exact accUnary_keeps_i inc8_keeps_i ..
  case deca | decb => exact accUnary_keeps_i dec8_keeps_i ..
  case coma | comb => exact accUnary_keeps_i com8_keeps_i ..
  case asla | aslb => exact accUnary_keeps_i asl8_keeps_i ..
  case asra | asrb => exact accUnary_keeps_i asr8_keeps_i ..
  case lsra | lsrb => exact accUnary_keeps_i lsr8_keeps_i ..
  case rola | rolb => exact accUnary_keeps_i rol8_keeps_i ..
  case rora | rorb => exact accUnary_keeps_i ror8_keeps_i ..
  case neg => exact memUnary_keeps_i neg8_keeps_i ..
  case inc => exact memUnary_keeps_i inc8_keeps_i ..
  case dec => exact memUnary_keeps_i dec8_keeps_i ..
  case com => exact memUnary_keeps_i com8_keeps_i ..
  case asl => exact memUnary_keeps_i asl8_keeps_i ..
  case asr => exact memUnary_keeps_i asr8_keeps_i ..
  case lsr => exact memUnary_keeps_i lsr8_keeps_i ..
  case rol => exact memUnary_keeps_i rol8_keeps_i ..
  case ror => exact memUnary_keeps_i ror8_keeps_i ..
  case aim | oim | eim => exact memUnary_keeps_i (fun _ _ => logic8_keeps_i ..) ..
  case staa | stab => exact store8_keeps_i ..
  case std | stx | sts => exact store16_keeps_i ..
  case psha | pshb => exact keeps_i_of_ccr (push8_ccr ..)
  case pshx => exact keeps_i_of_ccr (push16_ccr ..)
  case jsr | bsr => exact keeps_i_of_ccr (callTo_ccr ..)
  case pula | pulb => exact keeps_i_of_ccr (pull8_ccr s)
  case pulx | rts => exact keeps_i_of_ccr (pull16_ccr s)
  case bra | brn | bhi | bls | bcc | bcs | bne | beq | bvc | bvs | bpl | bmi | bge | blt | bgt | ble =>
    exact keeps_i_of_ccr (branchIf_ccr ..)
  case wai => exact setWait_keeps_i .wai (stackAll_ccr s)
  all_goals rfl

end Sys2Proof.Machine
end
